-- ==== Sys2Proof/Word.lean ====
section
/-! DEFINITION. The value types of the engine (00_scope.md R6, R8): bit 0 is the least significant bit of every
value, and every value is unsigned. -/

namespace Sys2Proof

/-- A 16-bit value: a register, a bus, IP, an offset, a segment, an instruction word (R6). -/
abbrev Word := BitVec 16

/-- A byte of memory (R34). -/
abbrev Byte := BitVec 8

/-- A 4-bit index or the step counter (R24, R28). -/
abbrev Nibble := BitVec 4

/-- The 32 bits of a control word, as the control store holds them (R29, R51). -/
abbrev ControlBits := BitVec 32

end Sys2Proof
end

