-- ==== Sys2Proof/Config.lean ====
section
/-! DEFINITION. What is fixed for the machine and what stays open: the byte an unlisted memory location reads as, and
the free value a window of the memory interface answers with. -/

namespace Sys2Proof

/-- One byte access to a window of the memory interface: a location that does not behave as RAM (20_memory.md R42). -/
inductive BusAccess where
  /-- a byte was read from the location -/
  | read (location : Nat)
  /-- a byte was written to the location -/
  | write (location : Nat) (value : Byte)
deriving DecidableEq, Repr

/-- What a byte of memory that nothing has written reads as. DESIGN CHOICE (log entry 1), unsafe: the spec leaves memory's
contents to MEM (70_reset_and_hazards.md R189); 95_test_vectors.md starts every vector with zero bytes. -/
def Config.memDefault : Byte := 0

/-- FREE VALUE (log entry 3): the byte a window answers a read with. It has no body, so nothing is known of it. Its arguments
are the location and every earlier access to a window, newest first; 'A model must not assume reads are idempotent or
that a read returns the last value written' (20_memory.md R42). -/
opaque Config.windowByte (location : Nat) (history : List BusAccess) : Byte

end Sys2Proof
end

