-- ==== Sys2Proof/Syntax.lean ====
section
/-! DEFINITION. The syntax: the codes of the control word's fields (30_encoding.md R53 to R62), the control word
(R52), and `Instr`, one constructor for each row of spec/opcode_table.json.

A row about a control word fixes one code of one field and leaves every other field free, so its constructor carries
the whole control word; that field of the carried word must hold the row's code (`Instr.WellFormed`), and the meaning
forces it. A control word therefore has ten readings, one for each field (log entry 8). -/

namespace Sys2Proof

/-- IPC, bits 2:0: the instruction-pointer action (R53). -/
inductive IpcCode where
  /-- `NONE` (R82) -/
  | none
  /-- `IPC1` (R83) -/
  | ipc1
  /-- `IPC2` (R84) -/
  | ipc2
  /-- `IPC4` (R85) -/
  | ipc4
  /-- `JMP` (R86) -/
  | jmp
  /-- `HLT` (R87) -/
  | hlt
  /-- `RTN` (R81) -/
  | rtn
  /-- `reserved7` (R63) -/
  | reserved7
deriving DecidableEq, Repr

/-- LAT, bits 4:3: the instruction- and operand-latch enable (R54). -/
inductive LatCode where
  /-- `NONE` (R139) -/
  | none
  /-- `II` (R140) -/
  | ii
  /-- `OI` (R141) -/
  | oi
  /-- `reserved3` (R63) -/
  | reserved3
deriving DecidableEq, Repr

/-- BA, bits 7:5: the bus A source (R55). -/
inductive BaCode where
  /-- `NONE` (R103) -/
  | none
  /-- `R1` (R104) -/
  | r1
  /-- `T0` (R105) -/
  | t0
  /-- `T1` (R106) -/
  | t1
  /-- `SP` (R107) -/
  | sp
  /-- `IE` (R108) -/
  | ie
  /-- `reserved6` (R63) -/
  | reserved6
  /-- `reserved7` (R63) -/
  | reserved7
deriving DecidableEq, Repr

/-- BB, bits 10:8: the bus B source (R56). -/
inductive BbCode where
  /-- `NONE` (R109) -/
  | none
  /-- `R2` (R110) -/
  | r2
  /-- `T0` (R111) -/
  | t0
  /-- `T1` (R112) -/
  | t1
  /-- `K1` (R113) -/
  | k1
  /-- `K2` (R114) -/
  | k2
  /-- `K4` (R115) -/
  | k4
  /-- `K8` (R116) -/
  | k8
deriving DecidableEq, Repr

/-- ALU, bits 13:11: the ALU operation (R57). -/
inductive AluCode where
  /-- `NONE` (R119) -/
  | none
  /-- `ADD` (R120) -/
  | add
  /-- `SUB` (R121) -/
  | sub
  /-- `OR` (R122) -/
  | or
  /-- `XOR` (R123) -/
  | xor
  /-- `AND` (R124) -/
  | and
  /-- `SHL` (R125) -/
  | shl
  /-- `SHR` (R126) -/
  | shr
deriving DecidableEq, Repr

/-- DST, bits 16:14: the destination (R58). -/
inductive DstCode where
  /-- `NONE` (R142) -/
  | none
  /-- `R1` (R143) -/
  | r1
  /-- `R2` (R144) -/
  | r2
  /-- `T0` (R145) -/
  | t0
  /-- `T1` (R146) -/
  | t1
  /-- `SP` (R147) -/
  | sp
  /-- `IE` (R148) -/
  | ie
  /-- `reserved7` (R63) -/
  | reserved7
deriving DecidableEq, Repr

/-- WID, bits 18:17: the bus width (R59). -/
inductive WidCode where
  /-- `WORD` (R99) -/
  | word
  /-- `BYTE` (R100) -/
  | byte
  /-- `BYTEH` (R101) -/
  | byteh
  /-- `BYTEZ` (R102) -/
  | bytez
deriving DecidableEq, Repr

/-- SEG, bits 21:19: the segment selection (R60). -/
inductive SegCode where
  /-- `NONE` (R129) -/
  | none
  /-- `CS` (R130) -/
  | cs
  /-- `SS` (R131) -/
  | ss
  /-- `SEGI` (R132) -/
  | segi
  /-- `SEGO` (R133) -/
  | sego
  /-- `INT` (R134) -/
  | int
  /-- `reserved6` (R63) -/
  | reserved6
  /-- `reserved7` (R63) -/
  | reserved7
deriving DecidableEq, Repr

/-- MEM, bits 23:22: the memory operation (R61). -/
inductive MemCode where
  /-- `NONE` (R135) -/
  | none
  /-- `RDIP` (R136) -/
  | rdip
  /-- `RDT` (R137) -/
  | rdt
  /-- `WRT` (R138) -/
  | wrt
deriving DecidableEq, Repr

/-- CJC, bits 25:24: the flag of the conditional step jump (R62). -/
inductive CjcCode where
  /-- `NONE` (R89) -/
  | none
  /-- `CJZ` (R90) -/
  | cjz
  /-- `CJC` (R91) -/
  | cjc
  /-- `CJS` (R92) -/
  | cjs
deriving DecidableEq, Repr

/-- A control word, decoded into the record of R52. Field `cjt` is the 6-bit step target (R62). -/
structure ControlWord where
  /-- bits 2:0 -/
  ipc : IpcCode := .none
  /-- bits 4:3 -/
  lat : LatCode := .none
  /-- bits 7:5 -/
  ba : BaCode := .none
  /-- bits 10:8 -/
  bb : BbCode := .none
  /-- bits 13:11 -/
  alu : AluCode := .none
  /-- bits 16:14 -/
  dst : DstCode := .none
  /-- bits 18:17 -/
  wid : WidCode := .word
  /-- bits 21:19 -/
  seg : SegCode := .none
  /-- bits 23:22 -/
  mem : MemCode := .none
  /-- bits 25:24 -/
  cjc : CjcCode := .none
  /-- bits 31:26 -/
  cjt : BitVec 6 := 0
deriving DecidableEq, Repr

/-- The ten fields with codes of their own: the ten ways to read a control word as a row of the table. -/
inductive Field where
  | ipc | lat | ba | bb | alu | dst | wid | seg | mem | cjc
deriving DecidableEq, Repr

/-- The instructions: one constructor for each row of spec/opcode_table.json, in its order. -/
inductive Instr where
  /-- IPC.NONE: a control word whose IPC is `NONE` (R82). -/
  | ipcNone (cw : ControlWord)
  /-- IPC.IPC1: a control word whose IPC is `IPC1` (R83). -/
  | ipcIpc1 (cw : ControlWord)
  /-- IPC.IPC2: a control word whose IPC is `IPC2` (R84). -/
  | ipcIpc2 (cw : ControlWord)
  /-- IPC.IPC4: a control word whose IPC is `IPC4` (R85). -/
  | ipcIpc4 (cw : ControlWord)
  /-- IPC.JMP: a control word whose IPC is `JMP` (R86). -/
  | ipcJmp (cw : ControlWord)
  /-- IPC.HLT: a control word whose IPC is `HLT` (R87). -/
  | ipcHlt (cw : ControlWord)
  /-- IPC.RTN: a control word whose IPC is `RTN` (R81). -/
  | ipcRtn (cw : ControlWord)
  /-- IPC.reserved7: a control word whose IPC is `reserved7` (R63). -/
  | ipcReserved7 (cw : ControlWord)
  /-- LAT.NONE: a control word whose LAT is `NONE` (R139). -/
  | latNone (cw : ControlWord)
  /-- LAT.II: a control word whose LAT is `II` (R140). -/
  | latIi (cw : ControlWord)
  /-- LAT.OI: a control word whose LAT is `OI` (R141). -/
  | latOi (cw : ControlWord)
  /-- LAT.reserved3: a control word whose LAT is `reserved3` (R63). -/
  | latReserved3 (cw : ControlWord)
  /-- BA.NONE: a control word whose BA is `NONE` (R103). -/
  | baNone (cw : ControlWord)
  /-- BA.R1: a control word whose BA is `R1` (R104). -/
  | baR1 (cw : ControlWord)
  /-- BA.T0: a control word whose BA is `T0` (R105). -/
  | baT0 (cw : ControlWord)
  /-- BA.T1: a control word whose BA is `T1` (R106). -/
  | baT1 (cw : ControlWord)
  /-- BA.SP: a control word whose BA is `SP` (R107). -/
  | baSp (cw : ControlWord)
  /-- BA.IE: a control word whose BA is `IE` (R108). -/
  | baIe (cw : ControlWord)
  /-- BA.reserved6: a control word whose BA is `reserved6` (R63). -/
  | baReserved6 (cw : ControlWord)
  /-- BA.reserved7: a control word whose BA is `reserved7` (R63). -/
  | baReserved7 (cw : ControlWord)
  /-- BB.NONE: a control word whose BB is `NONE` (R109). -/
  | bbNone (cw : ControlWord)
  /-- BB.R2: a control word whose BB is `R2` (R110). -/
  | bbR2 (cw : ControlWord)
  /-- BB.T0: a control word whose BB is `T0` (R111). -/
  | bbT0 (cw : ControlWord)
  /-- BB.T1: a control word whose BB is `T1` (R112). -/
  | bbT1 (cw : ControlWord)
  /-- BB.K1: a control word whose BB is `K1` (R113). -/
  | bbK1 (cw : ControlWord)
  /-- BB.K2: a control word whose BB is `K2` (R114). -/
  | bbK2 (cw : ControlWord)
  /-- BB.K4: a control word whose BB is `K4` (R115). -/
  | bbK4 (cw : ControlWord)
  /-- BB.K8: a control word whose BB is `K8` (R116). -/
  | bbK8 (cw : ControlWord)
  /-- ALU.NONE: a control word whose ALU is `NONE` (R119). -/
  | aluNone (cw : ControlWord)
  /-- ALU.ADD: a control word whose ALU is `ADD` (R120). -/
  | aluAdd (cw : ControlWord)
  /-- ALU.SUB: a control word whose ALU is `SUB` (R121). -/
  | aluSub (cw : ControlWord)
  /-- ALU.OR: a control word whose ALU is `OR` (R122). -/
  | aluOr (cw : ControlWord)
  /-- ALU.XOR: a control word whose ALU is `XOR` (R123). -/
  | aluXor (cw : ControlWord)
  /-- ALU.AND: a control word whose ALU is `AND` (R124). -/
  | aluAnd (cw : ControlWord)
  /-- ALU.SHL: a control word whose ALU is `SHL` (R125). -/
  | aluShl (cw : ControlWord)
  /-- ALU.SHR: a control word whose ALU is `SHR` (R126). -/
  | aluShr (cw : ControlWord)
  /-- DST.NONE: a control word whose DST is `NONE` (R142). -/
  | dstNone (cw : ControlWord)
  /-- DST.R1: a control word whose DST is `R1` (R143). -/
  | dstR1 (cw : ControlWord)
  /-- DST.R2: a control word whose DST is `R2` (R144). -/
  | dstR2 (cw : ControlWord)
  /-- DST.T0: a control word whose DST is `T0` (R145). -/
  | dstT0 (cw : ControlWord)
  /-- DST.T1: a control word whose DST is `T1` (R146). -/
  | dstT1 (cw : ControlWord)
  /-- DST.SP: a control word whose DST is `SP` (R147). -/
  | dstSp (cw : ControlWord)
  /-- DST.IE: a control word whose DST is `IE` (R148). -/
  | dstIe (cw : ControlWord)
  /-- DST.reserved7: a control word whose DST is `reserved7` (R63). -/
  | dstReserved7 (cw : ControlWord)
  /-- WID.WORD: a control word whose WID is `WORD` (R99). -/
  | widWord (cw : ControlWord)
  /-- WID.BYTE: a control word whose WID is `BYTE` (R100). -/
  | widByte (cw : ControlWord)
  /-- WID.BYTEH: a control word whose WID is `BYTEH` (R101). -/
  | widByteh (cw : ControlWord)
  /-- WID.BYTEZ: a control word whose WID is `BYTEZ` (R102). -/
  | widBytez (cw : ControlWord)
  /-- SEG.NONE: a control word whose SEG is `NONE` (R129). -/
  | segNone (cw : ControlWord)
  /-- SEG.CS: a control word whose SEG is `CS` (R130). -/
  | segCs (cw : ControlWord)
  /-- SEG.SS: a control word whose SEG is `SS` (R131). -/
  | segSs (cw : ControlWord)
  /-- SEG.SEGI: a control word whose SEG is `SEGI` (R132). -/
  | segSegi (cw : ControlWord)
  /-- SEG.SEGO: a control word whose SEG is `SEGO` (R133). -/
  | segSego (cw : ControlWord)
  /-- SEG.INT: a control word whose SEG is `INT` (R134). -/
  | segInt (cw : ControlWord)
  /-- SEG.reserved6: a control word whose SEG is `reserved6` (R63). -/
  | segReserved6 (cw : ControlWord)
  /-- SEG.reserved7: a control word whose SEG is `reserved7` (R63). -/
  | segReserved7 (cw : ControlWord)
  /-- MEM.NONE: a control word whose MEM is `NONE` (R135). -/
  | memNone (cw : ControlWord)
  /-- MEM.RDIP: a control word whose MEM is `RDIP` (R136). -/
  | memRdip (cw : ControlWord)
  /-- MEM.RDT: a control word whose MEM is `RDT` (R137). -/
  | memRdt (cw : ControlWord)
  /-- MEM.WRT: a control word whose MEM is `WRT` (R138). -/
  | memWrt (cw : ControlWord)
  /-- CJC.NONE: a control word whose CJC is `NONE` (R89). -/
  | cjcNone (cw : ControlWord)
  /-- CJC.CJZ: a control word whose CJC is `CJZ` (R90). -/
  | cjcCjz (cw : ControlWord)
  /-- CJC.CJC: a control word whose CJC is `CJC` (R91). -/
  | cjcCjc (cw : ControlWord)
  /-- CJC.CJS: a control word whose CJC is `CJS` (R92). -/
  | cjcCjs (cw : ControlWord)
  /-- A control word with CJC other than `NONE` and CJT of 16 or more (R62). -/
  | cjtRange (cw : ControlWord)
  /-- `NOP`; `low` is the ignored bits 3:0 of its word. (R153) -/
  | nop (low : Nibble)
  /-- `HLT`; `low` is the ignored bits 3:0 of its word. (R154) -/
  | hlt (low : Nibble)
  /-- `MOV r, imm16`; `r` is the register index IW[3:0], any of 0 to 15. (R155) -/
  | movRegImm16 (r : Nibble) (imm : Word)
  /-- `MOV r, imm8`. (R156) -/
  | movRegImm8 (r : Nibble) (imm : Byte)
  /-- `MOV r, r'`; bits 3:0 of the operand byte name r', bits 7:4 are ignored but reach OW. (R157) -/
  | movRegReg (r : Nibble) (operand : Byte)
  /-- `MOV word[seg:imm16], imm16`. (R158) -/
  | movMemImm (seg : Nibble) (addr : Word) (value : Word)
  /-- `MOV r, word[seg:r']`; the operand byte is seg in bits 7:4 and r' in bits 3:0. (R159) -/
  | movRegMemw (r : Nibble) (operand : Byte)
  /-- `MOV r, byte[seg:r']`. (R160) -/
  | movRegMemb (r : Nibble) (operand : Byte)
  /-- `ADD r, r'`. (R161) -/
  | addRegReg (r : Nibble) (operand : Byte)
  /-- `ADD r, imm16`. (R162) -/
  | addRegImm16 (r : Nibble) (imm : Word)
  /-- `SUB r, r'`. (R163) -/
  | subRegReg (r : Nibble) (operand : Byte)
  /-- `SUB r, imm16`. (R164) -/
  | subRegImm16 (r : Nibble) (imm : Word)
  /-- `SHL r, imm8`. (R165) -/
  | shlRegImm8 (r : Nibble) (imm : Byte)
  /-- `JMP imm16`; `slot` is bits 6:4 as stored in memory, which the latch replaces by the flags, and `low` the ignored bits 3:0. (R166) -/
  | jmp (slot : BitVec 3) (low : Nibble) (target : Word)
  /-- `JZ imm16`. (R167) -/
  | jz (slot : BitVec 3) (low : Nibble) (target : Word)
  /-- `JNZ imm16`. (R168) -/
  | jnz (slot : BitVec 3) (low : Nibble) (target : Word)
  /-- ILLEGAL: an instruction word whose block no procedure declares. (R169) -/
  | illegal (word : Word)
deriving DecidableEq, Repr

end Sys2Proof
end

