-- ==== Sys2Proof/Machine/Flags.lean ====
section
/-! DEFINITION. The ALU and every flag computation (42_alu.md). The arithmetic is on naturals, reduced modulo 2^w at the end (R118).
`w` is 16 or 8. -/

namespace Sys2Proof.Machine

/-- What the ALU drives: the data bus and the three flag values (R118). -/
structure AluOut where
  d : Word
  z : Bool
  c : Bool
  s : Bool
deriving DecidableEq, Repr

/-- The w-bit result and the flags read off it: Z is `r = 0`, S is bit w-1 of r (R118, R128). -/
def aluOut (w r : Nat) (c : Bool) : AluOut where
  d := BitVec.ofNat 16 r
  z := decide (r = 0)
  c := c
  s := r.testBit (w - 1)

/-- `ADD` (R120): C is the carry out of bit w-1. -/
def aluAdd (w a b : Nat) : AluOut := aluOut w ((a + b) % 2 ^ w) (decide (2 ^ w ≤ a + b))

/-- `SUB` (R121): a - b; C is the borrow. -/
def aluSub (w a b : Nat) : AluOut := aluOut w ((a + 2 ^ w - b) % 2 ^ w) (decide (a < b))

/-- `OR` (R122), C = 0. -/
def aluOr (w a b : Nat) : AluOut := aluOut w (a ||| b) false

/-- `XOR` (R123), C = 0. -/
def aluXor (w a b : Nat) : AluOut := aluOut w (a ^^^ b) false

/-- `AND` (R124), C = 0. -/
def aluAnd (w a b : Nat) : AluOut := aluOut w (a &&& b) false

/-- `SHL` (R125) by n = B[3:0]: C is the last bit shifted out, 0 when n is 0 or over the width. -/
def aluShl (w a n : Nat) : AluOut :=
  if n = 0 then aluOut w a false
  else if n ≤ w then aluOut w ((a <<< n) % 2 ^ w) (a.testBit (w - n))
  else aluOut w 0 false

/-- `SHR` (R126) by n = B[3:0], logical: C is the last bit shifted out, 0 when n is 0 or over the width. -/
def aluShr (w a n : Nat) : AluOut :=
  if n = 0 then aluOut w a false
  else if n ≤ w then aluOut w (a >>> n) (a.testBit (n - 1))
  else aluOut w 0 false

/-- The ALU (R118 to R126): bus A and bus B are taken modulo 2^w. With `NONE` the result is A | B (R119), and its flags are used by
nobody. -/
def alu (op : AluCode) (A B : Word) (w : Nat) : AluOut :=
  let a := A.toNat % 2 ^ w
  let b := B.toNat % 2 ^ w
  let n := B.toNat % 16
  match op with
  | .none => aluOr w a b
  | .add => aluAdd w a b
  | .sub => aluSub w a b
  | .or => aluOr w a b
  | .xor => aluXor w a b
  | .and => aluAnd w a b
  | .shl => aluShl w a n
  | .shr => aluShr w a n

end Sys2Proof.Machine
end

