-- ==== Sys2Proof/Decode.lean ====
section
/-! DEFINITION. Decoding and encoding, from the tables of 30_encoding.md and 44_macro_instructions.md rule R152.

* A control word: `decodeControl` reads the eleven fields of R52, total on all 2^32 words (R51). `readAs` and `decodeIn`
  read it as the row of one field; `decode` picks the field that `leadField` names (log entry 8).
* An instruction word with its operand bytes: `decodeInstr`, total on byte lists, rejecting a list that is too short by name.
* `encode` writes the bytes of an instruction, big-endian in both cases (R72 and 20_memory.md R38). -/

namespace Sys2Proof

/-- Why a list of bytes is no instruction: it is too short. Safe: no step decodes a short list. -/
inductive DecodeError where
  /-- fewer than four bytes for a control word -/
  | truncatedControlWord
  /-- fewer than two bytes for an instruction word -/
  | truncatedInstructionWord
  /-- the operand bytes of this instruction are missing -/
  | truncatedOperand (mnemonic : String)
deriving DecidableEq, Repr

/-! ### Bytes and bit-fields -/

/-- A word from its bytes, the byte at the lower offset being the more significant (R38). -/
def wordOfBytes (high low : Byte) : Word := high.setWidth 16 <<< 8 ||| low.setWidth 16

/-- Bits 15:8. -/
def highByte (w : Word) : Byte := w.extractLsb' 8 8

/-- Bits 7:0. -/
def lowByte (w : Word) : Byte := w.extractLsb' 0 8

/-- Bits 3:0 of an operand byte: the register index (R71). -/
def lowNibble (b : Byte) : Nibble := b.extractLsb' 0 4

/-- Bits 7:4 of an operand byte: the segment index (R71). -/
def highNibble (b : Byte) : Nibble := b.extractLsb' 4 4

/-! ### Field codes (R53 to R62) -/

/-- The code of each IPC option (R53). -/
def IpcCode.code : IpcCode → BitVec 3
  | .none => 0
  | .ipc1 => 1
  | .ipc2 => 2
  | .ipc4 => 3
  | .jmp => 4
  | .hlt => 5
  | .rtn => 6
  | .reserved7 => 7

/-- The IPC option of a code (R53). -/
def IpcCode.ofCode (c : BitVec 3) : IpcCode :=
  match c.toNat with
  | 0 => .none
  | 1 => .ipc1
  | 2 => .ipc2
  | 3 => .ipc4
  | 4 => .jmp
  | 5 => .hlt
  | 6 => .rtn
  | _ => .reserved7

/-- The code of each LAT option (R54). -/
def LatCode.code : LatCode → BitVec 2
  | .none => 0
  | .ii => 1
  | .oi => 2
  | .reserved3 => 3

/-- The LAT option of a code (R54). -/
def LatCode.ofCode (c : BitVec 2) : LatCode :=
  match c.toNat with
  | 0 => .none
  | 1 => .ii
  | 2 => .oi
  | _ => .reserved3

/-- The code of each BA option (R55). -/
def BaCode.code : BaCode → BitVec 3
  | .none => 0
  | .r1 => 1
  | .t0 => 2
  | .t1 => 3
  | .sp => 4
  | .ie => 5
  | .reserved6 => 6
  | .reserved7 => 7

/-- The BA option of a code (R55). -/
def BaCode.ofCode (c : BitVec 3) : BaCode :=
  match c.toNat with
  | 0 => .none
  | 1 => .r1
  | 2 => .t0
  | 3 => .t1
  | 4 => .sp
  | 5 => .ie
  | 6 => .reserved6
  | _ => .reserved7

/-- The code of each BB option (R56). -/
def BbCode.code : BbCode → BitVec 3
  | .none => 0
  | .r2 => 1
  | .t0 => 2
  | .t1 => 3
  | .k1 => 4
  | .k2 => 5
  | .k4 => 6
  | .k8 => 7

/-- The BB option of a code (R56). -/
def BbCode.ofCode (c : BitVec 3) : BbCode :=
  match c.toNat with
  | 0 => .none
  | 1 => .r2
  | 2 => .t0
  | 3 => .t1
  | 4 => .k1
  | 5 => .k2
  | 6 => .k4
  | _ => .k8

/-- The code of each ALU option (R57). -/
def AluCode.code : AluCode → BitVec 3
  | .none => 0
  | .add => 1
  | .sub => 2
  | .or => 3
  | .xor => 4
  | .and => 5
  | .shl => 6
  | .shr => 7

/-- The ALU option of a code (R57). -/
def AluCode.ofCode (c : BitVec 3) : AluCode :=
  match c.toNat with
  | 0 => .none
  | 1 => .add
  | 2 => .sub
  | 3 => .or
  | 4 => .xor
  | 5 => .and
  | 6 => .shl
  | _ => .shr

/-- The code of each DST option (R58). -/
def DstCode.code : DstCode → BitVec 3
  | .none => 0
  | .r1 => 1
  | .r2 => 2
  | .t0 => 3
  | .t1 => 4
  | .sp => 5
  | .ie => 6
  | .reserved7 => 7

/-- The DST option of a code (R58). -/
def DstCode.ofCode (c : BitVec 3) : DstCode :=
  match c.toNat with
  | 0 => .none
  | 1 => .r1
  | 2 => .r2
  | 3 => .t0
  | 4 => .t1
  | 5 => .sp
  | 6 => .ie
  | _ => .reserved7

/-- The code of each WID option (R59). -/
def WidCode.code : WidCode → BitVec 2
  | .word => 0
  | .byte => 1
  | .byteh => 2
  | .bytez => 3

/-- The WID option of a code (R59). -/
def WidCode.ofCode (c : BitVec 2) : WidCode :=
  match c.toNat with
  | 0 => .word
  | 1 => .byte
  | 2 => .byteh
  | _ => .bytez

/-- The code of each SEG option (R60). -/
def SegCode.code : SegCode → BitVec 3
  | .none => 0
  | .cs => 1
  | .ss => 2
  | .segi => 3
  | .sego => 4
  | .int => 5
  | .reserved6 => 6
  | .reserved7 => 7

/-- The SEG option of a code (R60). -/
def SegCode.ofCode (c : BitVec 3) : SegCode :=
  match c.toNat with
  | 0 => .none
  | 1 => .cs
  | 2 => .ss
  | 3 => .segi
  | 4 => .sego
  | 5 => .int
  | 6 => .reserved6
  | _ => .reserved7

/-- The code of each MEM option (R61). -/
def MemCode.code : MemCode → BitVec 2
  | .none => 0
  | .rdip => 1
  | .rdt => 2
  | .wrt => 3

/-- The MEM option of a code (R61). -/
def MemCode.ofCode (c : BitVec 2) : MemCode :=
  match c.toNat with
  | 0 => .none
  | 1 => .rdip
  | 2 => .rdt
  | _ => .wrt

/-- The code of each CJC option (R62). -/
def CjcCode.code : CjcCode → BitVec 2
  | .none => 0
  | .cjz => 1
  | .cjc => 2
  | .cjs => 3

/-- The CJC option of a code (R62). -/
def CjcCode.ofCode (c : BitVec 2) : CjcCode :=
  match c.toNat with
  | 0 => .none
  | 1 => .cjz
  | 2 => .cjc
  | _ => .cjs

/-! ### The control word (R52) -/

/-- The fields of a 32-bit control word (R52). Every word decodes (R51). -/
def decodeControl (w : ControlBits) : ControlWord where
  ipc := .ofCode (w.extractLsb' 0 3)
  lat := .ofCode (w.extractLsb' 3 2)
  ba := .ofCode (w.extractLsb' 5 3)
  bb := .ofCode (w.extractLsb' 8 3)
  alu := .ofCode (w.extractLsb' 11 3)
  dst := .ofCode (w.extractLsb' 14 3)
  wid := .ofCode (w.extractLsb' 17 2)
  seg := .ofCode (w.extractLsb' 19 3)
  mem := .ofCode (w.extractLsb' 22 2)
  cjc := .ofCode (w.extractLsb' 24 2)
  cjt := w.extractLsb' 26 6

/-- The 32 bits of a control word (R52): each field's code at the place of its lowest bit. -/
def encodeControl (cw : ControlWord) : ControlBits :=
  cw.ipc.code.setWidth 32 ||| cw.lat.code.setWidth 32 <<< 3 ||| cw.ba.code.setWidth 32 <<< 5 ||| cw.bb.code.setWidth 32 <<< 8 |||
    cw.alu.code.setWidth 32 <<< 11 ||| cw.dst.code.setWidth 32 <<< 14 ||| cw.wid.code.setWidth 32 <<< 17 ||| cw.seg.code.setWidth 32 <<< 19 |||
    cw.mem.code.setWidth 32 <<< 22 ||| cw.cjc.code.setWidth 32 <<< 24 ||| cw.cjt.setWidth 32 <<< 26

/-- The step target is out of range: CJC is not `NONE` and CJT is 16 or more (R62). -/
def ControlWord.targetOutOfRange (cw : ControlWord) : Bool :=
  cw.cjc != .none && decide (16 ≤ cw.cjt.toNat)

/-- The word of the row `CJT>=16 with CJC!=NONE`: bit 4 of CJT set, and CJC `CJZ` where it was `NONE`. It leaves a word that
already lies under the row with bit 4 of CJT set as it is. -/
def ControlWord.forceOutOfRange (cw : ControlWord) : ControlWord :=
  if cw.targetOutOfRange then cw
  else { cw with cjc := if cw.cjc = .none then .cjz else cw.cjc, cjt := cw.cjt ||| 16 }

/-- Reads a control word as the row of one field. The rows of CJC give way to the row `CJT>=16 with CJC!=NONE` (R62). -/
def readAs (f : Field) (cw : ControlWord) : Instr :=
  match f with
  | .ipc =>
    match cw.ipc with
    | .none => .ipcNone cw | .ipc1 => .ipcIpc1 cw | .ipc2 => .ipcIpc2 cw | .ipc4 => .ipcIpc4 cw | .jmp => .ipcJmp cw | .hlt => .ipcHlt cw | .rtn => .ipcRtn cw | .reserved7 => .ipcReserved7 cw
  | .lat =>
    match cw.lat with
    | .none => .latNone cw | .ii => .latIi cw | .oi => .latOi cw | .reserved3 => .latReserved3 cw
  | .ba =>
    match cw.ba with
    | .none => .baNone cw | .r1 => .baR1 cw | .t0 => .baT0 cw | .t1 => .baT1 cw | .sp => .baSp cw | .ie => .baIe cw | .reserved6 => .baReserved6 cw | .reserved7 => .baReserved7 cw
  | .bb =>
    match cw.bb with
    | .none => .bbNone cw | .r2 => .bbR2 cw | .t0 => .bbT0 cw | .t1 => .bbT1 cw | .k1 => .bbK1 cw | .k2 => .bbK2 cw | .k4 => .bbK4 cw | .k8 => .bbK8 cw
  | .alu =>
    match cw.alu with
    | .none => .aluNone cw | .add => .aluAdd cw | .sub => .aluSub cw | .or => .aluOr cw | .xor => .aluXor cw | .and => .aluAnd cw | .shl => .aluShl cw | .shr => .aluShr cw
  | .dst =>
    match cw.dst with
    | .none => .dstNone cw | .r1 => .dstR1 cw | .r2 => .dstR2 cw | .t0 => .dstT0 cw | .t1 => .dstT1 cw | .sp => .dstSp cw | .ie => .dstIe cw | .reserved7 => .dstReserved7 cw
  | .wid =>
    match cw.wid with
    | .word => .widWord cw | .byte => .widByte cw | .byteh => .widByteh cw | .bytez => .widBytez cw
  | .seg =>
    match cw.seg with
    | .none => .segNone cw | .cs => .segCs cw | .ss => .segSs cw | .segi => .segSegi cw | .sego => .segSego cw | .int => .segInt cw | .reserved6 => .segReserved6 cw | .reserved7 => .segReserved7 cw
  | .mem =>
    match cw.mem with
    | .none => .memNone cw | .rdip => .memRdip cw | .rdt => .memRdt cw | .wrt => .memWrt cw
  | .cjc =>
    if cw.targetOutOfRange then .cjtRange cw else
    match cw.cjc with
    | .none => .cjcNone cw | .cjz => .cjcCjz cw | .cjc => .cjcCjc cw | .cjs => .cjcCjs cw

/-- A 32-bit control word as an instruction of one field's rows. -/
def decodeIn (f : Field) (w : ControlBits) : Instr := readAs f (decodeControl w)

/-- The field by whose row `decode` names a word: the first in the table's order whose code is not 0. A word whose only bits
are in CJT lies under `CJC.NONE`, and the all-zero word under `IPC.NONE`. The choice has no effect on what the word
does: all readings have one meaning (log entry 8). -/
def leadField (cw : ControlWord) : Field :=
  if cw.ipc ≠ .none then .ipc else
  if cw.lat ≠ .none then .lat else
  if cw.ba ≠ .none then .ba else
  if cw.bb ≠ .none then .bb else
  if cw.alu ≠ .none then .alu else
  if cw.dst ≠ .none then .dst else
  if cw.wid ≠ .word then .wid else
  if cw.seg ≠ .none then .seg else
  if cw.mem ≠ .none then .mem else
  if cw.cjc ≠ .none ∨ cw.cjt ≠ 0 then .cjc else .ipc

/-- The instruction of a control word, the one a tick runs. -/
def decode (w : ControlBits) : Instr := decodeIn (leadField (decodeControl w)) w

/-- A control word from its four bytes, big-endian as a ROM image stores it (R72), read as a row of field `f`. -/
def decodeControlBytes (f : Field) : List Byte → Except DecodeError (Instr × List Byte)
  | b3 :: b2 :: b1 :: b0 :: rest => 
    .ok (decodeIn f (b3.setWidth 32 <<< 24 ||| b2.setWidth 32 <<< 16 ||| b1.setWidth 32 <<< 8 ||| b0.setWidth 32), rest)
  | _ => .error .truncatedControlWord

/-! ### The instruction word (R66 to R71, R152) -/

/-- The blocks of the table of R152 that hold two-operand (and zero-operand) procedures. -/
def declaredBlocks : List Word :=
  [0x0000, 0x0400, 0x08B0, 0x08A0, 0x0890, 0x0A30, 0x08D0, 0x08F0, 0x0C90, 0x0CB0, 0x1090, 0x10B0, 0x20A0]

/-- Bits 15:7 of the one-operand words of R152: their procedures occupy all eight flag blocks (R69, R166 to R168). -/
def declaredOneOperand : List Word := [0x9580, 0x9980, 0x9D80]

/-- Some procedure of the example ROM is declared for this instruction word (R152). -/
def isDeclared (w : Word) : Bool :=
  declaredBlocks.contains (w &&& 0xFFF0) || declaredOneOperand.contains (w &&& 0xFF80)

/-- Reads one operand byte. -/
def takeByte (mnemonic : String) (k : Byte → Instr) : List Byte → Except DecodeError (Instr × List Byte)
  | b :: rest => .ok (k b, rest)
  | [] => .error (.truncatedOperand mnemonic)

/-- Reads two operand bytes as a big-endian word. -/
def takeWord (mnemonic : String) (k : Word → Instr) : List Byte → Except DecodeError (Instr × List Byte)
  | h :: l :: rest => .ok (k (wordOfBytes h l), rest)
  | _ => .error (.truncatedOperand mnemonic)

/-- Reads four operand bytes as two big-endian words. -/
def takeTwoWords (mnemonic : String) (k : Word → Word → Instr) : List Byte → Except DecodeError (Instr × List Byte)
  | h :: l :: h' :: l' :: rest => .ok (k (wordOfBytes h l) (wordOfBytes h' l'), rest)
  | _ => .error (.truncatedOperand mnemonic)

/-- The instruction of an instruction word and the bytes after it (R152 to R169). -/
def decodeOperands (w : Word) (rest : List Byte) : Except DecodeError (Instr × List Byte) :=
  let block := w &&& 0xFFF0
  let group := w &&& 0xFF80
  let index : Nibble := w.extractLsb' 0 4
  let slot : BitVec 3 := w.extractLsb' 4 3
  if block = 0x0000 then .ok (.nop index, rest) else
  if block = 0x0400 then .ok (.hlt index, rest) else
  if block = 0x08B0 then takeWord "MOV_r__imm16" (.movRegImm16 index) rest else
  if block = 0x08A0 then takeByte "MOV_r__imm8" (.movRegImm8 index) rest else
  if block = 0x0890 then takeByte "MOV_r__r" (.movRegReg index) rest else
  if block = 0x0A30 then takeTwoWords "MOV_word_seg_imm16___imm16" (.movMemImm index) rest else
  if block = 0x08D0 then takeByte "MOV_r__word_seg_r" (.movRegMemw index) rest else
  if block = 0x08F0 then takeByte "MOV_r__byte_seg_r" (.movRegMemb index) rest else
  if block = 0x0C90 then takeByte "ADD_r__r" (.addRegReg index) rest else
  if block = 0x0CB0 then takeWord "ADD_r__imm16" (.addRegImm16 index) rest else
  if block = 0x1090 then takeByte "SUB_r__r" (.subRegReg index) rest else
  if block = 0x10B0 then takeWord "SUB_r__imm16" (.subRegImm16 index) rest else
  if block = 0x20A0 then takeByte "SHL_r__imm8" (.shlRegImm8 index) rest else
  if group = 0x9580 then takeWord "JMP_imm16" (.jmp slot index) rest else
  if group = 0x9980 then takeWord "JZ_imm16" (.jz slot index) rest else
  if group = 0x9D80 then takeWord "JNZ_imm16" (.jnz slot index) rest else
  .ok (.illegal w, rest)

/-- The instruction that a list of bytes begins with, and the bytes after it. -/
def decodeInstr : List Byte → Except DecodeError (Instr × List Byte)
  | high :: low :: rest => decodeOperands (wordOfBytes high low) rest
  | _ => .error .truncatedInstructionWord

/-! ### The encoder -/

/-- The field under whose rows an instruction lies; `none` for an instruction word. -/
def Instr.field? : Instr → Option Field
  | .ipcNone _ | .ipcIpc1 _ | .ipcIpc2 _ | .ipcIpc4 _ | .ipcJmp _ | .ipcHlt _ | .ipcRtn _ | .ipcReserved7 _ => some .ipc
  | .latNone _ | .latIi _ | .latOi _ | .latReserved3 _ => some .lat
  | .baNone _ | .baR1 _ | .baT0 _ | .baT1 _ | .baSp _ | .baIe _ | .baReserved6 _ | .baReserved7 _ => some .ba
  | .bbNone _ | .bbR2 _ | .bbT0 _ | .bbT1 _ | .bbK1 _ | .bbK2 _ | .bbK4 _ | .bbK8 _ => some .bb
  | .aluNone _ | .aluAdd _ | .aluSub _ | .aluOr _ | .aluXor _ | .aluAnd _ | .aluShl _ | .aluShr _ => some .alu
  | .dstNone _ | .dstR1 _ | .dstR2 _ | .dstT0 _ | .dstT1 _ | .dstSp _ | .dstIe _ | .dstReserved7 _ => some .dst
  | .widWord _ | .widByte _ | .widByteh _ | .widBytez _ => some .wid
  | .segNone _ | .segCs _ | .segSs _ | .segSegi _ | .segSego _ | .segInt _ | .segReserved6 _ | .segReserved7 _ => some .seg
  | .memNone _ | .memRdip _ | .memRdt _ | .memWrt _ => some .mem
  | .cjcNone _ | .cjcCjz _ | .cjcCjc _ | .cjcCjs _ | .cjtRange _ => some .cjc
  | .nop _ | .hlt _ | .movRegImm16 _ _ | .movRegImm8 _ _ | .movRegReg _ _ | .movMemImm _ _ _ | .movRegMemw _ _ | .movRegMemb _ _ | .addRegReg _ _ | .addRegImm16 _ _ | .subRegReg _ _ | .subRegImm16 _ _ | .shlRegImm8 _ _ | .jmp _ _ _ | .jz _ _ _ | .jnz _ _ _ | .illegal _ => none

/-- The control word of an instruction of the first kind: the carried word with the row's code forced. -/
def Instr.controlWord? : Instr → Option ControlWord
  | .ipcNone cw => some { cw with ipc := .none }
  | .ipcIpc1 cw => some { cw with ipc := .ipc1 }
  | .ipcIpc2 cw => some { cw with ipc := .ipc2 }
  | .ipcIpc4 cw => some { cw with ipc := .ipc4 }
  | .ipcJmp cw => some { cw with ipc := .jmp }
  | .ipcHlt cw => some { cw with ipc := .hlt }
  | .ipcRtn cw => some { cw with ipc := .rtn }
  | .ipcReserved7 cw => some { cw with ipc := .reserved7 }
  | .latNone cw => some { cw with lat := .none }
  | .latIi cw => some { cw with lat := .ii }
  | .latOi cw => some { cw with lat := .oi }
  | .latReserved3 cw => some { cw with lat := .reserved3 }
  | .baNone cw => some { cw with ba := .none }
  | .baR1 cw => some { cw with ba := .r1 }
  | .baT0 cw => some { cw with ba := .t0 }
  | .baT1 cw => some { cw with ba := .t1 }
  | .baSp cw => some { cw with ba := .sp }
  | .baIe cw => some { cw with ba := .ie }
  | .baReserved6 cw => some { cw with ba := .reserved6 }
  | .baReserved7 cw => some { cw with ba := .reserved7 }
  | .bbNone cw => some { cw with bb := .none }
  | .bbR2 cw => some { cw with bb := .r2 }
  | .bbT0 cw => some { cw with bb := .t0 }
  | .bbT1 cw => some { cw with bb := .t1 }
  | .bbK1 cw => some { cw with bb := .k1 }
  | .bbK2 cw => some { cw with bb := .k2 }
  | .bbK4 cw => some { cw with bb := .k4 }
  | .bbK8 cw => some { cw with bb := .k8 }
  | .aluNone cw => some { cw with alu := .none }
  | .aluAdd cw => some { cw with alu := .add }
  | .aluSub cw => some { cw with alu := .sub }
  | .aluOr cw => some { cw with alu := .or }
  | .aluXor cw => some { cw with alu := .xor }
  | .aluAnd cw => some { cw with alu := .and }
  | .aluShl cw => some { cw with alu := .shl }
  | .aluShr cw => some { cw with alu := .shr }
  | .dstNone cw => some { cw with dst := .none }
  | .dstR1 cw => some { cw with dst := .r1 }
  | .dstR2 cw => some { cw with dst := .r2 }
  | .dstT0 cw => some { cw with dst := .t0 }
  | .dstT1 cw => some { cw with dst := .t1 }
  | .dstSp cw => some { cw with dst := .sp }
  | .dstIe cw => some { cw with dst := .ie }
  | .dstReserved7 cw => some { cw with dst := .reserved7 }
  | .widWord cw => some { cw with wid := .word }
  | .widByte cw => some { cw with wid := .byte }
  | .widByteh cw => some { cw with wid := .byteh }
  | .widBytez cw => some { cw with wid := .bytez }
  | .segNone cw => some { cw with seg := .none }
  | .segCs cw => some { cw with seg := .cs }
  | .segSs cw => some { cw with seg := .ss }
  | .segSegi cw => some { cw with seg := .segi }
  | .segSego cw => some { cw with seg := .sego }
  | .segInt cw => some { cw with seg := .int }
  | .segReserved6 cw => some { cw with seg := .reserved6 }
  | .segReserved7 cw => some { cw with seg := .reserved7 }
  | .memNone cw => some { cw with mem := .none }
  | .memRdip cw => some { cw with mem := .rdip }
  | .memRdt cw => some { cw with mem := .rdt }
  | .memWrt cw => some { cw with mem := .wrt }
  | .cjcNone cw => some { cw with cjc := .none }
  | .cjcCjz cw => some { cw with cjc := .cjz }
  | .cjcCjc cw => some { cw with cjc := .cjc }
  | .cjcCjs cw => some { cw with cjc := .cjs }
  | .cjtRange cw => some cw.forceOutOfRange
  | .nop _ | .hlt _ | .movRegImm16 _ _ | .movRegImm8 _ _ | .movRegReg _ _ | .movMemImm _ _ _ | .movRegMemw _ _ | .movRegMemb _ _ | .addRegReg _ _ | .addRegImm16 _ _ | .subRegReg _ _ | .subRegImm16 _ _ | .shlRegImm8 _ _ | .jmp _ _ _ | .jz _ _ _ | .jnz _ _ _ | .illegal _ => none

/-- A two-operand (or zero-operand) instruction word: its block with the index of bits 3:0 (R66). -/
def withIndex (block : Word) (index : Nibble) : Word := block ||| index.setWidth 16

/-- A one-operand instruction word: bits 15:7, the flags slot of bits 6:4 and the index of bits 3:0 (R67). -/
def oneOperandWord (group : Word) (slot : BitVec 3) (index : Nibble) : Word :=
  group ||| slot.setWidth 16 <<< 4 ||| index.setWidth 16

/-- The instruction word of an instruction of the second kind (R66, R67, R152); 0 for a control word. -/
def Instr.instrWord : Instr → Word
  | .nop low => withIndex 0x0000 low
  | .hlt low => withIndex 0x0400 low
  | .movRegImm16 r _ => withIndex 0x08B0 r
  | .movRegImm8 r _ => withIndex 0x08A0 r
  | .movRegReg r _ => withIndex 0x0890 r
  | .movMemImm seg _ _ => withIndex 0x0A30 seg
  | .movRegMemw r _ => withIndex 0x08D0 r
  | .movRegMemb r _ => withIndex 0x08F0 r
  | .addRegReg r _ => withIndex 0x0C90 r
  | .addRegImm16 r _ => withIndex 0x0CB0 r
  | .subRegReg r _ => withIndex 0x1090 r
  | .subRegImm16 r _ => withIndex 0x10B0 r
  | .shlRegImm8 r _ => withIndex 0x20A0 r
  | .jmp slot low _ => oneOperandWord 0x9580 slot low
  | .jz slot low _ => oneOperandWord 0x9980 slot low
  | .jnz slot low _ => oneOperandWord 0x9D80 slot low
  | .illegal word => word
  | .ipcNone _ | .ipcIpc1 _ | .ipcIpc2 _ | .ipcIpc4 _ | .ipcJmp _ | .ipcHlt _ | .ipcRtn _
  | .ipcReserved7 _ | .latNone _ | .latIi _ | .latOi _ | .latReserved3 _ | .baNone _ | .baR1 _
  | .baT0 _ | .baT1 _ | .baSp _ | .baIe _ | .baReserved6 _ | .baReserved7 _ | .bbNone _
  | .bbR2 _ | .bbT0 _ | .bbT1 _ | .bbK1 _ | .bbK2 _ | .bbK4 _ | .bbK8 _
  | .aluNone _ | .aluAdd _ | .aluSub _ | .aluOr _ | .aluXor _ | .aluAnd _ | .aluShl _
  | .aluShr _ | .dstNone _ | .dstR1 _ | .dstR2 _ | .dstT0 _ | .dstT1 _ | .dstSp _
  | .dstIe _ | .dstReserved7 _ | .widWord _ | .widByte _ | .widByteh _ | .widBytez _ | .segNone _
  | .segCs _ | .segSs _ | .segSegi _ | .segSego _ | .segInt _ | .segReserved6 _ | .segReserved7 _
  | .memNone _ | .memRdip _ | .memRdt _ | .memWrt _ | .cjcNone _ | .cjcCjz _ | .cjcCjc _
  | .cjcCjs _ | .cjtRange _ => 0

/-- The operand bytes of an instruction of the second kind, in the order of memory (R71). -/
def Instr.operandBytes : Instr → List Byte
  | .movRegImm16 _ imm => [highByte imm, lowByte imm]
  | .movRegImm8 _ imm => [imm]
  | .movRegReg _ operand => [operand]
  | .movMemImm _ addr value => [highByte addr, lowByte addr, highByte value, lowByte value]
  | .movRegMemw _ operand => [operand]
  | .movRegMemb _ operand => [operand]
  | .addRegReg _ operand => [operand]
  | .addRegImm16 _ imm => [highByte imm, lowByte imm]
  | .subRegReg _ operand => [operand]
  | .subRegImm16 _ imm => [highByte imm, lowByte imm]
  | .shlRegImm8 _ imm => [imm]
  | .jmp _ _ target => [highByte target, lowByte target]
  | .jz _ _ target => [highByte target, lowByte target]
  | .jnz _ _ target => [highByte target, lowByte target]
  | .nop _ | .hlt _ | .illegal _ | .ipcNone _ | .ipcIpc1 _ | .ipcIpc2 _ | .ipcIpc4 _
  | .ipcJmp _ | .ipcHlt _ | .ipcRtn _ | .ipcReserved7 _ | .latNone _ | .latIi _ | .latOi _
  | .latReserved3 _ | .baNone _ | .baR1 _ | .baT0 _ | .baT1 _ | .baSp _ | .baIe _
  | .baReserved6 _ | .baReserved7 _ | .bbNone _ | .bbR2 _ | .bbT0 _ | .bbT1 _ | .bbK1 _
  | .bbK2 _ | .bbK4 _ | .bbK8 _ | .aluNone _ | .aluAdd _ | .aluSub _ | .aluOr _
  | .aluXor _ | .aluAnd _ | .aluShl _ | .aluShr _ | .dstNone _ | .dstR1 _ | .dstR2 _
  | .dstT0 _ | .dstT1 _ | .dstSp _ | .dstIe _ | .dstReserved7 _ | .widWord _ | .widByte _
  | .widByteh _ | .widBytez _ | .segNone _ | .segCs _ | .segSs _ | .segSegi _ | .segSego _
  | .segInt _ | .segReserved6 _ | .segReserved7 _ | .memNone _ | .memRdip _ | .memRdt _ | .memWrt _
  | .cjcNone _ | .cjcCjz _ | .cjcCjc _ | .cjcCjs _ | .cjtRange _ => []

/-- The bytes of an instruction: a control word as a ROM image stores it (R72), or an instruction word and its operand bytes
(R70), most significant byte first. -/
def encode (i : Instr) : List Byte :=
  match i.controlWord? with
  | some cw =>
    let w := encodeControl cw
    [w.extractLsb' 24 8, w.extractLsb' 16 8, w.extractLsb' 8 8, w.extractLsb' 0 8]
  | none => [highByte i.instrWord, lowByte i.instrWord] ++ i.operandBytes

/-! ### The table's words (for the host) -/

/-- How a number of the opcode table is laid out: a control word, or an instruction word whose operand bytes are zero. Rows
of 16 bits are the instruction words. A 16-bit number all of whose set bits lie in bits 13:8 and for whose block no
procedure is declared is the low half of a control word that only sets BB or ALU (log entry 9). -/
def isInstructionRow (nbits w : Nat) : Bool :=
  nbits == 16 && !(!isDeclared (BitVec.ofNat 16 w) && decide (BitVec.ofNat 16 w &&& 0xC0FF = 0))

/-- The six bytes of an instruction word followed by zero operand bytes. -/
def rowBytes (w : Nat) : List Byte :=
  [highByte (BitVec.ofNat 16 w), lowByte (BitVec.ofNat 16 w), 0, 0, 0, 0]

/-- The instruction the decoder reads from a row's number. -/
def decodeTableWord (nbits w : Nat) : Option Instr :=
  if isInstructionRow nbits w then
    match decodeInstr (rowBytes w) with
    | .ok (i, _) => some i
    | .error _ => none
  else if nbits ≤ 32 then some (decode (BitVec.ofNat 32 w)) else none

end Sys2Proof
end

