-- ==== Sys2Proof/Machine/Sparse.lean ====
section
/-! DEFINITION. A total map from addresses to values, written as a list of the entries that differ from a default: memory
bytes, PHYS and the control store are held so. The canonical form has strictly rising addresses and no entry equal to the
default, so equal maps are equal lists. -/

namespace Sys2Proof.Machine

/-- The value at an address: the listed one, else the default. -/
def sparseGet {β : Type} (dflt : Nat → β) : List (Nat × β) → Nat → β
  | [], a => dflt a
  | (k, v) :: rest, a => if k = a then v else sparseGet dflt rest a

/-- Puts an entry in front of a list, unless it says no more than the default. -/
def sparseCons {β : Type} [DecidableEq β] (dflt : Nat → β) (a : Nat) (v : β) (l : List (Nat × β)) : List (Nat × β) :=
  if v = dflt a then l else (a, v) :: l

/-- Writes the value at an address, keeping the canonical form. -/
def sparseSet {β : Type} [DecidableEq β] (dflt : Nat → β) : List (Nat × β) → Nat → β → List (Nat × β)
  | [], a, v => sparseCons dflt a v []
  | (k, u) :: rest, a, v =>
    if a < k then sparseCons dflt a v ((k, u) :: rest)
    else if a = k then sparseCons dflt a v rest
    else (k, u) :: sparseSet dflt rest a v

/-- The canonical form, from a lowest address on. -/
def sparseWfFrom {β : Type} [DecidableEq β] (dflt : Nat → β) : Nat → List (Nat × β) → Bool
  | _, [] => true
  | lo, (k, v) :: rest => decide (lo ≤ k) && (v != dflt k) && sparseWfFrom dflt (k + 1) rest

/-- The canonical form: addresses strictly rising, no entry equal to the default. -/
def sparseWf {β : Type} [DecidableEq β] (dflt : Nat → β) (l : List (Nat × β)) : Bool :=
  sparseWfFrom dflt 0 l

/-- A list of addresses is strictly rising, from a lowest address on. -/
def risingFrom : Nat → List Nat → Bool
  | _, [] => true
  | lo, k :: rest => decide (lo ≤ k) && risingFrom (k + 1) rest

end Sys2Proof.Machine
end

