-- ==== Sys2Proof/Machine/State.lean ====
section
/-! DEFINITION. The state of the machine: the record at the head of 10_state.md, the two parameters ROM and MEM of
00_scope.md R6 as plain data, and two fields of the model's own (`mem.log`, `grain`). -/

namespace Sys2Proof.Machine

/-- The reasons of R173, in its order. -/
inductive FaultReason where
  /-- a reserved code of IPC, LAT, BA, DST or SEG -/
  | reservedCode
  /-- CJC is not `NONE` and CJT is 16 or more -/
  | stepTargetRange
  /-- a register index of 8 to 15 is used -/
  | badRegIndex
  /-- a register index of 4 to 7 is used at a byte width -/
  | byteOfWordReg
  /-- a memory operation with SEG = `NONE` -/
  | noSegment
  /-- a memory operation with SEG = `INT` -/
  | unmodelled
  /-- a memory operation with a segment index that is not 5, 6 or 7 -/
  | badSegmentIndex
deriving DecidableEq, Repr

/-- The run state (R31). -/
inductive RunState where
  | fetching
  | halted
  | faulted (reason : FaultReason)
deriving DecidableEq, Repr

/-- What one step of the model is: a tick (R75), or, where R97 allows it, a whole macro-instruction. The MODEL's own
field (log entry 6). -/
inductive Grain where
  | tick
  | instruction
deriving DecidableEq, Repr

/-- The registers a register index names (R24). -/
inductive Reg where
  | r0 | r1 | r2 | r3 | sp | ss | cs | ds
deriving DecidableEq, Repr

/-- The memory interface MEM (R34, R42). -/
structure Memory where
  /-- PHYS: the (segment, offset) pairs, as 65536 * segment + offset, that do not decode to the location of their own number (log entry 2) -/
  phys : List (Nat × Nat) := []
  /-- the locations that do not behave as RAM, rising (log entry 3) -/
  windows : List Nat := []
  /-- the bytes of the RAM-like locations that are not `Config.memDefault` (log entry 1) -/
  cells : List Host.Cell := []
  /-- every access made to a window so far, newest first: the MODEL's own field (log entry 3) -/
  log : List BusAccess := []
deriving DecidableEq, Repr

/-- The state. Defaults are the reset values of R32. -/
structure State where
  r0 : Word := 0
  r1 : Word := 0
  r2 : Word := 0
  r3 : Word := 0
  /-- stack pointer (R16) -/
  sp : Word := 0
  /-- stack, code and data segment (R17) -/
  ss : Word := 0
  cs : Word := 0
  ds : Word := 0
  /-- instruction pointer (R18) -/
  ip : Word := 0
  /-- instruction-word latch (R20) -/
  iw : Word := 0
  /-- operand-word latch (R21) -/
  ow : Word := 0
  /-- temp latches (R22) -/
  t0 : Word := 0
  t1 : Word := 0
  /-- flags Z, C, S (R23) -/
  zf : Bool := false
  cf : Bool := false
  sf : Bool := false
  /-- interrupt-enable latch (R27) -/
  ie : Bool := false
  /-- step counter (R28) -/
  stepCtr : Nibble := 0
  /-- run state (R31) -/
  run : RunState := .fetching
  /-- the control store: the words that differ from the example ROM (R29, log entry 5) -/
  rom : List (Nat × ControlBits) := []
  /-- the memory interface (R34) -/
  mem : Memory := {}
  /-- what one step is: the MODEL's own field (log entry 6) -/
  grain : Grain := .tick
deriving DecidableEq, Repr

/-- The reasons a step stops with a fault: none. A fault of the spec is a run state that a step enters (R175, log entry 11), so no
meaning and no step of this model stops. Safe: nothing is cut short. -/
inductive Fault where
deriving DecidableEq, Repr

/-- The reasons a step is refused. -/
inductive Refusal where
  /-- Raised by an arm of `exec` whose instruction has no meaning yet; no arm does. Safe: the model stops where the hardware goes on. -/
  | notModelled (mnemonic : String)
deriving DecidableEq, Repr

/-- The machine right after reset (R32, R189): every engine component 0 and Fetching; the ROM is the example ROM and memory lists
nothing (log entries 1, 2, 3, 5); a step is a tick (log entry 6). -/
def State.reset : State where
  r0 := 0
  r1 := 0
  r2 := 0
  r3 := 0
  sp := 0
  ss := 0
  cs := 0
  ds := 0
  ip := 0
  iw := 0
  ow := 0
  t0 := 0
  t1 := 0
  zf := false
  cf := false
  sf := false
  ie := false
  stepCtr := 0
  run := .fetching
  rom := []
  mem := { phys := [], windows := [], cells := [], log := [] }
  grain := .tick

end Sys2Proof.Machine
end

