-- ==== Sys2Proof/Machine/Rom.lean ====
section
/-! DEFINITION. The control store (10_state.md R29): the example ROM of 44_macro_instructions.md R150 to R170, and the reading and
placing of control words. The example ROM is the spec's own illustration; any other ROM is the list `State.rom` of its
differences (log entry 5). -/

namespace Sys2Proof.Machine

/-! ### The named control words of R152 -/

/-- SEG=CS, MEM=RDIP, WID=WORD, LAT=II, IPC=IPC2 (R151) -/
def cwFetch : ControlBits := 0x0048000A
/-- IPC=RTN -/
def cwRtn : ControlBits := 0x00000006
/-- IPC=HLT -/
def cwHlt : ControlBits := 0x00000005
/-- SEG=CS, MEM=RDIP, WID=WORD, DST=R1, IPC=IPC2 -/
def cwRdwR1 : ControlBits := 0x00484002
/-- SEG=CS, MEM=RDIP, WID=BYTE, DST=R1, IPC=IPC1 -/
def cwRdbR1 : ControlBits := 0x004A4001
/-- SEG=CS, MEM=RDIP, WID=BYTE, LAT=OI, IPC=IPC1 -/
def cwRdbOi : ControlBits := 0x004A0011
/-- SEG=CS, MEM=RDIP, WID=WORD, DST=T0, IPC=IPC2 -/
def cwRdwT0 : ControlBits := 0x0048C002
/-- SEG=CS, MEM=RDIP, WID=WORD, DST=T1, IPC=IPC2 -/
def cwRdwT1 : ControlBits := 0x00490002
/-- SEG=CS, MEM=RDIP, WID=BYTE, DST=T1, IPC=IPC1 -/
def cwRdbT1 : ControlBits := 0x004B0001
/-- BB=R2, DST=R1 -/
def cwMovR2R1 : ControlBits := 0x00004100
/-- BB=R2, DST=T0 -/
def cwR2ToT0 : ControlBits := 0x0000C100
/-- BA=T1, SEG=SEGI, MEM=WRT, WID=WORD -/
def cwWrT1AtT0Segi : ControlBits := 0x00D80060
/-- SEG=SEGO, MEM=RDT, WID=WORD, DST=R1 -/
def cwRdAtT0SegoR1 : ControlBits := 0x00A04000
/-- SEG=SEGO, MEM=RDT, WID=BYTEZ, DST=R1 -/
def cwRdbzAtT0SegoR1 : ControlBits := 0x00A64000
/-- BA=R1, BB=R2, ALU=ADD, DST=R1 -/
def cwAddR1R2 : ControlBits := 0x00004920
/-- BA=R1, BB=T1, ALU=ADD, DST=R1 -/
def cwAddR1T1 : ControlBits := 0x00004B20
/-- BA=R1, BB=R2, ALU=SUB, DST=R1 -/
def cwSubR1R2 : ControlBits := 0x00005120
/-- BA=R1, BB=T1, ALU=SUB, DST=R1 -/
def cwSubR1T1 : ControlBits := 0x00005320
/-- BA=R1, BB=T1, ALU=SHL, DST=R1 -/
def cwShlR1T1 : ControlBits := 0x00007320
/-- SEG=CS, MEM=RDIP, WID=WORD, IPC=JMP -/
def cwJmpImm : ControlBits := 0x00480004
/-- IPC=IPC2 -/
def cwSkip2 : ControlBits := 0x00000002

/-- The procedure in the block at address `b`, a multiple of 16: the blocks of R153 to R168, else ILLEGAL (R169, R170). The flag
blocks of the one-operand words have Z in bit 4 (R140). -/
def exampleBlock (b : Word) : List ControlBits :=
  if b = 0x0000 then [cwFetch, cwRtn] else
  if b = 0x0400 then [cwFetch, cwHlt] else
  if b = 0x08B0 then [cwFetch, cwRdwR1, cwRtn] else
  if b = 0x08A0 then [cwFetch, cwRdbR1, cwRtn] else
  if b = 0x0890 then [cwFetch, cwRdbOi, cwMovR2R1, cwRtn] else
  if b = 0x0A30 then [cwFetch, cwRdwT0, cwRdwT1, cwWrT1AtT0Segi, cwRtn] else
  if b = 0x08D0 then [cwFetch, cwRdbOi, cwR2ToT0, cwRdAtT0SegoR1, cwRtn] else
  if b = 0x08F0 then [cwFetch, cwRdbOi, cwR2ToT0, cwRdbzAtT0SegoR1, cwRtn] else
  if b = 0x0C90 then [cwFetch, cwRdbOi, cwAddR1R2, cwRtn] else
  if b = 0x0CB0 then [cwFetch, cwRdwT1, cwAddR1T1, cwRtn] else
  if b = 0x1090 then [cwFetch, cwRdbOi, cwSubR1R2, cwRtn] else
  if b = 0x10B0 then [cwFetch, cwRdwT1, cwSubR1T1, cwRtn] else
  if b = 0x20A0 then [cwFetch, cwRdbT1, cwShlR1T1, cwRtn] else
  if b &&& 0xFF80 = 0x9580 then [cwFetch, cwJmpImm, cwRtn] else
  if b &&& 0xFF80 = 0x9980 then (if b.getLsbD 4 then [cwFetch, cwJmpImm, cwRtn] else [cwFetch, cwSkip2, cwRtn]) else
  if b &&& 0xFF80 = 0x9D80 then (if b.getLsbD 4 then [cwFetch, cwSkip2, cwRtn] else [cwFetch, cwJmpImm, cwRtn]) else
  [cwFetch, cwHlt]

/-- The example ROM as a function (R170): words after a procedure's end are 0. -/
def exampleRom (a : Word) : ControlBits :=
  ((exampleBlock (a &&& 0xFFF0))[(a &&& 0xF).toNat]?).getD 0

/-- What an unlisted control-store address holds. -/
def romDefault (k : Nat) : ControlBits := exampleRom (BitVec.ofNat 16 k)

/-- `ROM[a]` (R9, R29). -/
def State.romRead (s : State) (a : Word) : ControlBits := sparseGet romDefault s.rom a.toNat

/-- The list of differences with `ROM[a]` holding `w`: how the host builds a control store (R194, `ROM`, at construction). No
instruction does this (R50). -/
def romPlace (rom : List (Nat × ControlBits)) (a : Word) (w : ControlBits) : List (Nat × ControlBits) :=
  sparseSet romDefault rom a.toNat w

/-- The canonical form of the list of differences; addresses are 16 bits. -/
def romWf (rom : List (Nat × ControlBits)) : Bool :=
  sparseWf romDefault rom && rom.all fun e => decide (e.1 < 65536)

end Sys2Proof.Machine
end

