-- ==== Sys2Proof/Machine/Ops.lean ====
section
/-! DEFINITION. The named operations over registers and memory, the fault checks and fault entry, and the phases' writes.
Every source is read from the state at the start of the tick (R79, R199); the writes are of the state at its end. -/

namespace Sys2Proof.Machine

/-! ### Registers by index (R24 to R26) -/

/-- The register of an index (R24); indices 8 to 15 name none. -/
def Reg.ofIndex (i : Nibble) : Option Reg :=
  match i.toNat with
  | 0 => some .r0
  | 1 => some .r1
  | 2 => some .r2
  | 3 => some .r3
  | 4 => some .sp
  | 5 => some .ss
  | 6 => some .cs
  | 7 => some .ds
  | _ => none

/-- The word in a register. -/
def State.getReg (s : State) : Reg → Word
  | .r0 => s.r0
  | .r1 => s.r1
  | .r2 => s.r2
  | .r3 => s.r3
  | .sp => s.sp
  | .ss => s.ss
  | .cs => s.cs
  | .ds => s.ds

/-- Writes a register whole. -/
def State.setReg (s : State) (r : Reg) (v : Word) : State :=
  match r with
  | .r0 => { s with r0 := v }
  | .r1 => { s with r1 := v }
  | .r2 => { s with r2 := v }
  | .r3 => { s with r3 := v }
  | .sp => { s with sp := v }
  | .ss => { s with ss := v }
  | .cs => { s with cs := v }
  | .ds => { s with ds := v }

/-- The bits a width code reads of a register (R25). -/
def widthRead (wid : WidCode) (v : Word) : Word :=
  match wid with
  | .word => v
  | .byte => v &&& 0x00FF
  | .byteh => v >>> 8
  | .bytez => v &&& 0x00FF

/-- A register's value after a write of `d` at a width code, given its value before (R26). -/
def widthWrite (wid : WidCode) (old d : Word) : Word :=
  match wid with
  | .word => d
  | .byte => (old &&& 0xFF00) ||| (d &&& 0x00FF)
  | .byteh => (d <<< 8) ||| (old &&& (0x00FF : Word))
  | .bytez => d &&& 0x00FF

/-- `regRead(i, wid)` (R25). The two faults are checked before (`indexFault`), so the value at an index without a register is
read by nobody. -/
def regRead (s : State) (i : Nibble) (wid : WidCode) : Word :=
  match Reg.ofIndex i with
  | some r => widthRead wid (s.getReg r)
  | none => 0

/-- `regWrite(i, wid, d)` (R26), in the state `u`. -/
def regWrite (u : State) (i : Nibble) (wid : WidCode) (d : Word) : State :=
  match Reg.ofIndex i with
  | some r => u.setReg r (widthWrite wid (u.getReg r) d)
  | none => u

/-- IW[3:0]: the index of operand 1, and of `SEGI` (R20). -/
def State.index1 (s : State) : Nibble := s.iw.extractLsb' 0 4

/-- OW[3:0]: the index of operand 2 (R21). -/
def State.index2 (s : State) : Nibble := s.ow.extractLsb' 0 4

/-- OW[7:4]: the index of `SEGO` (R21). -/
def State.segIndex2 (s : State) : Nibble := s.ow.extractLsb' 4 4

/-! ### Faults (R172 to R176) -/

/-- `raise Fault(reason)`: the engine enters the Faulted run state and nothing else changes (R175). There is no return from it
(R176). -/
def raise (reason : FaultReason) (s : State) : State := { s with run := .faulted reason }

/-- `reset()` (R189, R194), the host's operation and the only way out of Halted and Faulted: every engine component at its value of
R32; memory and the control store are not touched. No step does it. -/
def engineReset (s : State) : State := { State.reset with rom := s.rom, mem := s.mem, grain := s.grain }

/-- A reserved code in any field (R63). -/
def reservedCode (cw : ControlWord) : Bool :=
  cw.ipc == .reserved7 || cw.lat == .reserved3 || cw.ba == .reserved6 || cw.ba == .reserved7 ||
    cw.dst == .reserved7 || cw.seg == .reserved6 || cw.seg == .reserved7

/-- The fault of a register index at a width code: BadRegIndex before ByteOfWordReg (R25, R174). -/
def indexFault (i : Nibble) (wid : WidCode) : Option FaultReason :=
  if 8 ≤ i.toNat then some .badRegIndex
  else if 4 ≤ i.toNat ∧ wid ≠ .word then some .byteOfWordReg
  else none

/-- The word uses the register of operand 1: BA = R1 or DST = R1 (R174). -/
def usesR1 (cw : ControlWord) : Bool := cw.ba == .r1 || cw.dst == .r1

/-- The word uses the register of operand 2: BB = R2 or DST = R2 (R174). -/
def usesR2 (cw : ControlWord) : Bool := cw.bb == .r2 || cw.dst == .r2

/-- A segment index names SS, CS or DS (R132, R133). -/
def isSegmentIndex (i : Nibble) : Bool := i == 5 || i == 6 || i == 7

/-- The segment fault of a word (R129 to R134); a word without a memory operation has none. -/
def segmentFault (cw : ControlWord) (s : State) : Option FaultReason :=
  if cw.mem = .none then none else
  match cw.seg with
  | .none => some .noSegment
  | .int => some .unmodelled
  | .segi => if isSegmentIndex s.index1 then none else some .badSegmentIndex
  | .sego => if isSegmentIndex s.segIndex2 then none else some .badSegmentIndex
  | .cs => none
  | .ss => none
  | .reserved6 => none
  | .reserved7 => none

/-- `validate` (R78): the first fault of the word in the order of R174, or none. -/
def validate (cw : ControlWord) (s : State) : Option FaultReason :=
  if reservedCode cw then some .reservedCode
  else if cw.targetOutOfRange then some .stepTargetRange
  else if usesR1 cw && (indexFault s.index1 cw.wid).isSome then indexFault s.index1 cw.wid
  else if usesR2 cw && (indexFault s.index2 cw.wid).isSome then indexFault s.index2 cw.wid
  else segmentFault cw s

/-! ### The memory interface (20_memory.md) -/

/-- A (segment, offset) pair as one number. -/
def pairKey (seg off : Word) : Nat := seg.toNat * 65536 + off.toNat

/-- PHYS: the location of a (segment, offset) pair (R34). -/
def Memory.locate (m : Memory) (seg off : Word) : Nat := sparseGet (fun k => k) m.phys (pairKey seg off)

/-- The byte held at a RAM-like location. -/
def Memory.byteAt (m : Memory) (location : Nat) : Byte := sparseGet (fun _ => Config.memDefault) m.cells location

/-- `MEM.readByte(seg, off)` (R34): the byte of a RAM-like location, or a window's answer, which the log of accesses makes a new
free value each time (R42, log entry 3). -/
def Memory.readByte (m : Memory) (seg off : Word) : Byte × Memory :=
  let l := m.locate seg off
  if l ∈ m.windows then (Config.windowByte l m.log, { m with log := .read l :: m.log })
  else (m.byteAt l, m)

/-- `MEM.writeByte(seg, off, b)` (R34). -/
def Memory.writeByte (m : Memory) (seg off : Word) (b : Byte) : Memory :=
  let l := m.locate seg off
  if l ∈ m.windows then { m with log := .write l b :: m.log }
  else { m with cells := sparseSet (fun _ => Config.memDefault) m.cells l b }

/-- `zext_16(MemRead(seg, off, w/8))` (R36): a word is two byte reads, the high byte first, the offset wrapping in the segment. -/
def Memory.read (m : Memory) (wid : WidCode) (seg off : Word) : Word × Memory :=
  match wid with
  | .word =>
    let hi := m.readByte seg off
    let lo := hi.2.readByte seg (off + 1)
    (wordOfBytes hi.1 lo.1, lo.2)
  | _ =>
    let b := m.readByte seg off
    (b.1.setWidth 16, b.2)

/-- `MemWrite(seg, off, w/8, v)` (R37): a word is two byte writes, the high byte first. -/
def Memory.write (m : Memory) (wid : WidCode) (seg off v : Word) : Memory :=
  match wid with
  | .word => (m.writeByte seg off (highByte v)).writeByte seg (off + 1) (lowByte v)
  | _ => m.writeByte seg off (lowByte v)

/-- The canonical form of memory: PHYS lists pairs of 32 bits in rising order, none decoding to itself; the windows rise; the bytes
rise by location and none is the default. -/
def Memory.wf (m : Memory) : Bool :=
  sparseWf (fun k => k) m.phys && m.phys.all (fun e => decide (e.1 < 4294967296)) && risingFrom 0 m.windows &&
    sparseWf (fun _ => Config.memDefault) m.cells

/-! ### The input phase: latches and destinations (43_memory_and_latch.md) -/

/-- The value `II` latches: D, with bits 6:4 replaced by S, C, Z at the start of the tick when bit 15 is 1 (R140). -/
def mergeFlags (s : State) (d : Word) : Word :=
  if d.getLsbD 15 then
    (d &&& (0xFF8F : Word)) ||| ((BitVec.ofBool s.sf).setWidth 16 <<< 6) ||| ((BitVec.ofBool s.cf).setWidth 16 <<< 5) |||
      ((BitVec.ofBool s.zf).setWidth 16 <<< 4)
  else d

/-- LAT (R139 to R141): the latches of `u` after the data bus `d`, the flags being those of `s`, the start of the tick. -/
def latchPhase (lat : LatCode) (s : State) (d : Word) (u : State) : State :=
  match lat with
  | .none => u
  | .ii => { u with iw := mergeFlags s d }
  | .oi => { u with ow := d }
  | .reserved3 => u

/-- DST (R142 to R148): the register indices are those of `s`, the start of the tick. -/
def destPhase (dst : DstCode) (wid : WidCode) (s : State) (d : Word) (u : State) : State :=
  match dst with
  | .none => u
  | .r1 => regWrite u s.index1 wid d
  | .r2 => regWrite u s.index2 wid d
  | .t0 => { u with t0 := d }
  | .t1 => { u with t1 := d }
  | .sp => { u with sp := d }
  | .ie => { u with ie := d.getLsbD 0 }
  | .reserved7 => u

/-! ### IP, step and halt (40_sequencer.md) -/

/-- IPC (R82 to R88): IP after the tick. -/
def ipControl (ipc : IpcCode) (d ip : Word) : Word :=
  match ipc with
  | .none => ip
  | .ipc1 => ip + 1
  | .ipc2 => ip + 2
  | .ipc4 => ip + 4
  | .jmp => d
  | .hlt => ip
  | .rtn => ip
  | .reserved7 => ip

/-- The conditional step jump is taken: the flag is that of the start of the tick (R89 to R92). -/
def jumpTaken (sel : CjcCode) (s : State) : Bool :=
  match sel with
  | .none => false
  | .cjz => s.zf
  | .cjc => s.cf
  | .cjs => s.sf

/-- The step counter after the tick (R77): CJT[3:0] where the jump is taken, else the next step modulo 16. -/
def nextStep (cw : ControlWord) (s : State) : Nibble :=
  if jumpTaken cw.cjc s then cw.cjt.setWidth 4 else s.stepCtr + 1

/-- The run state after the tick (R87). -/
def haltControl (ipc : IpcCode) (run : RunState) : RunState :=
  match ipc with
  | .hlt => .halted
  | _ => run

end Sys2Proof.Machine
end

