-- ==== Sys2Proof/Machine/Operands.lean ====
section
/-! DEFINITION. Every operand form: the widths, the two bus sources, the segment value and the address bus (41_bus_sources.md,
43_memory_and_latch.md section 1). All are read from the state at the start of the tick (R117). -/

namespace Sys2Proof.Machine

/-- The width of a tick in bits (R98). -/
def widthBits : WidCode → Nat
  | .word => 16
  | .byte => 8
  | .byteh => 8
  | .bytez => 8

/-- A direct source's low w bits, zero-extended (R117): the low byte at all three byte widths. -/
def lowBits (wid : WidCode) (v : Word) : Word :=
  match wid with
  | .word => v
  | _ => v &&& 0x00FF

/-- Bus A (R103 to R108). -/
def busA (ba : BaCode) (wid : WidCode) (s : State) : Word :=
  match ba with
  | .none => 0
  | .r1 => regRead s s.index1 wid
  | .t0 => lowBits wid s.t0
  | .t1 => lowBits wid s.t1
  | .sp => lowBits wid s.sp
  | .ie => (BitVec.ofBool s.ie).setWidth 16
  | .reserved6 => 0
  | .reserved7 => 0

/-- Bus B (R109 to R116). -/
def busB (bb : BbCode) (wid : WidCode) (s : State) : Word :=
  match bb with
  | .none => 0
  | .r2 => regRead s s.index2 wid
  | .t0 => lowBits wid s.t0
  | .t1 => lowBits wid s.t1
  | .k1 => 1
  | .k2 => 2
  | .k4 => 4
  | .k8 => 8

/-- The segment value (R129 to R134). The codes that have none fault with a memory operation and are used by nobody without
one. -/
def segValue (seg : SegCode) (s : State) : Word :=
  match seg with
  | .none => 0
  | .cs => s.cs
  | .ss => s.ss
  | .segi => regRead s s.index1 .word
  | .sego => regRead s s.segIndex2 .word
  | .int => 0
  | .reserved6 => 0
  | .reserved7 => 0

/-- The address bus: IP for `RDIP`, T0 otherwise (R75). -/
def addressBus (mem : MemCode) (s : State) : Word :=
  match mem with
  | .rdip => s.ip
  | _ => s.t0

end Sys2Proof.Machine
end

