-- ==== Sys2Proof/Machine/Tick.lean ====
section
/-! DEFINITION. The tick of one control word (40_sequencer.md R75), the operation under every row about a control word. -/

namespace Sys2Proof.Machine

/-- The compute phase (R75): the ALU on the two buses. -/
def aluPhase (cw : ControlWord) (s : State) : AluOut :=
  alu cw.alu (busA cw.ba cw.wid s) (busB cw.bb cw.wid s) (widthBits cw.wid)

/-- The memory phase (R135 to R138): the data bus and the memory after it, from the ALU's result `d`. -/
def memoryPhase (cw : ControlWord) (s : State) (d : Word) : Word × Memory :=
  let seg := segValue cw.seg s
  let addr := addressBus cw.mem s
  match cw.mem with
  | .none => (d, s.mem)
  | .rdip => s.mem.read cw.wid seg addr
  | .rdt => s.mem.read cw.wid seg addr
  | .wrt => (d, s.mem.write cw.wid seg addr d)

/-- The flag write of the input phase (R127): all three, unless ALU is `NONE`. -/
def flagPhase (op : AluCode) (out : AluOut) (u : State) : State :=
  match op with
  | .none => u
  | _ => { u with zf := out.z, cf := out.c, sf := out.s }

/-- The phases of a valid word, in the order of R79. -/
def performWord (cw : ControlWord) (s : State) : State :=
  let out := aluPhase cw s
  let bus := memoryPhase cw s out.d
  let u := destPhase cw.dst cw.wid s bus.1 (latchPhase cw.lat s bus.1 { s with mem := bus.2 })
  let v := flagPhase cw.alu out u
  { v with
    ip := ipControl cw.ipc bus.1 s.ip
    stepCtr := nextStep cw s
    run := haltControl cw.ipc s.run }

/-- One tick of one control word (R75): nothing outside Fetching (R80); `RTN` alone (R81); a fault before any effect (R78, R175);
else the phases. -/
def tickWord (cw : ControlWord) (s : State) : State :=
  if s.run ≠ .fetching then s
  else if cw.ipc = .rtn then { s with stepCtr := 0 }
  else
    match validate cw s with
    | some reason => raise reason s
    | none => performWord cw s

/-- The tick of a control word as an outcome: always a next state. -/
def runWord (cw : ControlWord) (s : State) : Host.Outcome State Fault Refusal := .next (tickWord cw s)

end Sys2Proof.Machine
end

