-- ==== Sys2Proof/Machine/Alu.lean ====
section
/-! DEFINITION. The meanings of the rows of field ALU (42_alu.md section 2): the tick of a control word whose ALU is
the row's code. What the code does stands in the phase operations of Ops, Operands, Flags and Tick. -/

namespace Sys2Proof.Machine

/-- `ALU.NONE`: D <- A | B, flags kept (R119). -/
def execAluNone (cw : ControlWord) (s : State) : Host.Outcome State Fault Refusal :=
  runWord { cw with alu := .none } s

/-- `ALU.ADD`: D <- A + B (R120). -/
def execAluAdd (cw : ControlWord) (s : State) : Host.Outcome State Fault Refusal :=
  runWord { cw with alu := .add } s

/-- `ALU.SUB`: D <- A - B (R121). -/
def execAluSub (cw : ControlWord) (s : State) : Host.Outcome State Fault Refusal :=
  runWord { cw with alu := .sub } s

/-- `ALU.OR`: D <- A | B, flags written (R122). -/
def execAluOr (cw : ControlWord) (s : State) : Host.Outcome State Fault Refusal :=
  runWord { cw with alu := .or } s

/-- `ALU.XOR`: D <- A ^ B (R123). -/
def execAluXor (cw : ControlWord) (s : State) : Host.Outcome State Fault Refusal :=
  runWord { cw with alu := .xor } s

/-- `ALU.AND`: D <- A & B (R124). -/
def execAluAnd (cw : ControlWord) (s : State) : Host.Outcome State Fault Refusal :=
  runWord { cw with alu := .and } s

/-- `ALU.SHL`: D <- A << B[3:0] (R125). -/
def execAluShl (cw : ControlWord) (s : State) : Host.Outcome State Fault Refusal :=
  runWord { cw with alu := .shl } s

/-- `ALU.SHR`: D <- A >> B[3:0] (R126). -/
def execAluShr (cw : ControlWord) (s : State) : Host.Outcome State Fault Refusal :=
  runWord { cw with alu := .shr } s

end Sys2Proof.Machine
end

