-- ==== Sys2Proof/Machine/BusA.lean ====
section
/-! DEFINITION. The meanings of the rows of field BA (41_bus_sources.md section 2): the tick of a control word whose BA is
the row's code. What the code does stands in the phase operations of Ops, Operands, Flags and Tick. -/

namespace Sys2Proof.Machine

/-- `BA.NONE`: A <- 0 (R103). -/
def execBaNone (cw : ControlWord) (s : State) : Host.Outcome State Fault Refusal :=
  runWord { cw with ba := .none } s

/-- `BA.R1`: A <- regRead(IW[3:0], WID) (R104). -/
def execBaR1 (cw : ControlWord) (s : State) : Host.Outcome State Fault Refusal :=
  runWord { cw with ba := .r1 } s

/-- `BA.T0`: A <- T0 (R105). -/
def execBaT0 (cw : ControlWord) (s : State) : Host.Outcome State Fault Refusal :=
  runWord { cw with ba := .t0 } s

/-- `BA.T1`: A <- T1 (R106). -/
def execBaT1 (cw : ControlWord) (s : State) : Host.Outcome State Fault Refusal :=
  runWord { cw with ba := .t1 } s

/-- `BA.SP`: A <- SP (R107). -/
def execBaSp (cw : ControlWord) (s : State) : Host.Outcome State Fault Refusal :=
  runWord { cw with ba := .sp } s

/-- `BA.IE`: A <- zext_16(IE) (R108). -/
def execBaIe (cw : ControlWord) (s : State) : Host.Outcome State Fault Refusal :=
  runWord { cw with ba := .ie } s

/-- `BA.reserved6`: Fault(ReservedCode) (R63). -/
def execBaReserved6 (cw : ControlWord) (s : State) : Host.Outcome State Fault Refusal :=
  runWord { cw with ba := .reserved6 } s

/-- `BA.reserved7`: Fault(ReservedCode) (R63). -/
def execBaReserved7 (cw : ControlWord) (s : State) : Host.Outcome State Fault Refusal :=
  runWord { cw with ba := .reserved7 } s

end Sys2Proof.Machine
end

