-- ==== Sys2Proof/Machine/BusB.lean ====
section
/-! DEFINITION. The meanings of the rows of field BB (41_bus_sources.md section 3): the tick of a control word whose BB is
the row's code. What the code does stands in the phase operations of Ops, Operands, Flags and Tick. -/

namespace Sys2Proof.Machine

/-- `BB.NONE`: B <- 0 (R109). -/
def execBbNone (cw : ControlWord) (s : State) : Host.Outcome State Fault Refusal :=
  runWord { cw with bb := .none } s

/-- `BB.R2`: B <- regRead(OW[3:0], WID) (R110). -/
def execBbR2 (cw : ControlWord) (s : State) : Host.Outcome State Fault Refusal :=
  runWord { cw with bb := .r2 } s

/-- `BB.T0`: B <- T0 (R111). -/
def execBbT0 (cw : ControlWord) (s : State) : Host.Outcome State Fault Refusal :=
  runWord { cw with bb := .t0 } s

/-- `BB.T1`: B <- T1 (R112). -/
def execBbT1 (cw : ControlWord) (s : State) : Host.Outcome State Fault Refusal :=
  runWord { cw with bb := .t1 } s

/-- `BB.K1`: B <- 1 (R113). -/
def execBbK1 (cw : ControlWord) (s : State) : Host.Outcome State Fault Refusal :=
  runWord { cw with bb := .k1 } s

/-- `BB.K2`: B <- 2 (R114). -/
def execBbK2 (cw : ControlWord) (s : State) : Host.Outcome State Fault Refusal :=
  runWord { cw with bb := .k2 } s

/-- `BB.K4`: B <- 4 (R115). -/
def execBbK4 (cw : ControlWord) (s : State) : Host.Outcome State Fault Refusal :=
  runWord { cw with bb := .k4 } s

/-- `BB.K8`: B <- 8 (R116). -/
def execBbK8 (cw : ControlWord) (s : State) : Host.Outcome State Fault Refusal :=
  runWord { cw with bb := .k8 } s

end Sys2Proof.Machine
end

