-- ==== Sys2Proof/Machine/Dest.lean ====
section
/-! DEFINITION. The meanings of the rows of field DST (43_memory_and_latch.md section 4): the tick of a control word whose DST is
the row's code. What the code does stands in the phase operations of Ops, Operands, Flags and Tick. -/

namespace Sys2Proof.Machine

/-- `DST.NONE`: no destination (R142). -/
def execDstNone (cw : ControlWord) (s : State) : Host.Outcome State Fault Refusal :=
  runWord { cw with dst := .none } s

/-- `DST.R1`: regWrite(IW[3:0], WID, D) (R143). -/
def execDstR1 (cw : ControlWord) (s : State) : Host.Outcome State Fault Refusal :=
  runWord { cw with dst := .r1 } s

/-- `DST.R2`: regWrite(OW[3:0], WID, D) (R144). -/
def execDstR2 (cw : ControlWord) (s : State) : Host.Outcome State Fault Refusal :=
  runWord { cw with dst := .r2 } s

/-- `DST.T0`: T0 <- D (R145). -/
def execDstT0 (cw : ControlWord) (s : State) : Host.Outcome State Fault Refusal :=
  runWord { cw with dst := .t0 } s

/-- `DST.T1`: T1 <- D (R146). -/
def execDstT1 (cw : ControlWord) (s : State) : Host.Outcome State Fault Refusal :=
  runWord { cw with dst := .t1 } s

/-- `DST.SP`: SP <- D (R147). -/
def execDstSp (cw : ControlWord) (s : State) : Host.Outcome State Fault Refusal :=
  runWord { cw with dst := .sp } s

/-- `DST.IE`: IE <- D[0] (R148). -/
def execDstIe (cw : ControlWord) (s : State) : Host.Outcome State Fault Refusal :=
  runWord { cw with dst := .ie } s

/-- `DST.reserved7`: Fault(ReservedCode) (R63). -/
def execDstReserved7 (cw : ControlWord) (s : State) : Host.Outcome State Fault Refusal :=
  runWord { cw with dst := .reserved7 } s

end Sys2Proof.Machine
end

