-- ==== Sys2Proof/Machine/IpControl.lean ====
section
/-! DEFINITION. The meanings of the rows of field IPC (40_sequencer.md sections 2 and 3): the tick of a control word whose IPC is
the row's code. What the code does stands in the phase operations of Ops, Operands, Flags and Tick. -/

namespace Sys2Proof.Machine

/-- `IPC.NONE`: IP unchanged (R82). -/
def execIpcNone (cw : ControlWord) (s : State) : Host.Outcome State Fault Refusal :=
  runWord { cw with ipc := .none } s

/-- `IPC.IPC1`: IP <- IP + 1 (R83). -/
def execIpcIpc1 (cw : ControlWord) (s : State) : Host.Outcome State Fault Refusal :=
  runWord { cw with ipc := .ipc1 } s

/-- `IPC.IPC2`: IP <- IP + 2 (R84). -/
def execIpcIpc2 (cw : ControlWord) (s : State) : Host.Outcome State Fault Refusal :=
  runWord { cw with ipc := .ipc2 } s

/-- `IPC.IPC4`: IP <- IP + 4 (R85). -/
def execIpcIpc4 (cw : ControlWord) (s : State) : Host.Outcome State Fault Refusal :=
  runWord { cw with ipc := .ipc4 } s

/-- `IPC.JMP`: IP <- D (R86). -/
def execIpcJmp (cw : ControlWord) (s : State) : Host.Outcome State Fault Refusal :=
  runWord { cw with ipc := .jmp } s

/-- `IPC.HLT`: the word's other fields, then run <- Halted (R87). -/
def execIpcHlt (cw : ControlWord) (s : State) : Host.Outcome State Fault Refusal :=
  runWord { cw with ipc := .hlt } s

/-- `IPC.RTN`: step <- 0 and nothing else (R81). -/
def execIpcRtn (cw : ControlWord) (s : State) : Host.Outcome State Fault Refusal :=
  runWord { cw with ipc := .rtn } s

/-- `IPC.reserved7`: Fault(ReservedCode) (R63). -/
def execIpcReserved7 (cw : ControlWord) (s : State) : Host.Outcome State Fault Refusal :=
  runWord { cw with ipc := .reserved7 } s

end Sys2Proof.Machine
end

