-- ==== Sys2Proof/Machine/Latch.lean ====
section
/-! DEFINITION. The meanings of the rows of field LAT (43_memory_and_latch.md section 3): the tick of a control word whose LAT is
the row's code. What the code does stands in the phase operations of Ops, Operands, Flags and Tick. -/

namespace Sys2Proof.Machine

/-- `LAT.NONE`: IW and OW unchanged (R139). -/
def execLatNone (cw : ControlWord) (s : State) : Host.Outcome State Fault Refusal :=
  runWord { cw with lat := .none } s

/-- `LAT.II`: IW <- D with the flags merged (R140). -/
def execLatIi (cw : ControlWord) (s : State) : Host.Outcome State Fault Refusal :=
  runWord { cw with lat := .ii } s

/-- `LAT.OI`: OW <- D (R141). -/
def execLatOi (cw : ControlWord) (s : State) : Host.Outcome State Fault Refusal :=
  runWord { cw with lat := .oi } s

/-- `LAT.reserved3`: Fault(ReservedCode) (R63). -/
def execLatReserved3 (cw : ControlWord) (s : State) : Host.Outcome State Fault Refusal :=
  runWord { cw with lat := .reserved3 } s

end Sys2Proof.Machine
end

