-- ==== Sys2Proof/Machine/Macro.lean ====
section
/-! DEFINITION. The meanings of the macro-instructions of the example ROM (44_macro_instructions.md R153 to R169): the net effect of
each, from the FETCH of its word to its `RTN`, `HLT` or fault (R149). They are written from the rules' own pseudocode and
exceptions, not by running the ROM; that the ROM's ticks do the same is stated as an obligation (R97).

The operand bytes are those of the instruction; the engine is at step 0 of a block whose step 0 is FETCH (R150). A
faulting instruction leaves what its earlier ticks did (R175). -/

namespace Sys2Proof.Machine

/-- A macro-instruction begins only in Fetching; otherwise nothing happens (R80). -/
def whenFetching (s s' : State) : Host.Outcome State Fault Refusal :=
  .next (if s.run = .fetching then s' else s)

/-- FETCH (R151): the instruction word `w` latched with the flags merged, IP past it, at step 1. -/
def afterFetch (w : Word) (s : State) : State :=
  { s with iw := mergeFlags s w, ip := s.ip + 2, stepCtr := 1 }

/-- The operand byte in OW, IP past it, at step 2 (RDB_OI of R152). -/
def afterOperandByte (b : Byte) (s : State) : State :=
  { s with ow := b.setWidth 16, ip := s.ip + 1, stepCtr := 2 }

/-- A word operand in T1, IP past it, at step 2 (RDW_T1 of R152). -/
def afterOperandWord (v : Word) (s : State) : State :=
  { s with t1 := v, ip := s.ip + 2, stepCtr := 2 }

/-- `RTN`: step 0 (R81). -/
def returned (s : State) : State := { s with stepCtr := 0 }

/-- The flags of an ALU result (R127). -/
def withFlags (out : AluOut) (s : State) : State := { s with zf := out.z, cf := out.c, sf := out.s }

/-- `reg[r] <- reg[r] op v` at 16 bits with the flags of the operation, then `RTN`; Fault(BadRegIndex) if r is 8 to 15
(R161 to R165). -/
def aluOnReg (op : AluCode) (r : Nibble) (v : Word) (s : State) : State :=
  match Reg.ofIndex r with
  | some d =>
    let out := alu op (s.getReg d) v 16
    returned (withFlags out (s.setReg d out.d))
  | none => raise .badRegIndex s

/-- `reg[r] <- reg[r] op reg[r']`, both indices of the operands checked first (R161, R163). -/
def aluOnRegs (op : AluCode) (r : Nibble) (operand : Byte) (s : State) : State :=
  match Reg.ofIndex (lowNibble operand) with
  | some src => aluOnReg op r (s.getReg src) s
  | none => raise .badRegIndex s

/-- `NOP` (R153): IP past the word. -/
def execNop (low : Nibble) (s : State) : Host.Outcome State Fault Refusal :=
  whenFetching s (returned (afterFetch (Instr.nop low).instrWord s))

/-- `HLT` (R154): Halted at step 2. -/
def execHlt (low : Nibble) (s : State) : Host.Outcome State Fault Refusal :=
  whenFetching s { afterFetch (Instr.hlt low).instrWord s with stepCtr := 2, run := .halted }

/-- `MOV r, imm16` (R155): Fault(BadRegIndex) at step 1 if r is 8 to 15. -/
def execMovRegImm16 (r : Nibble) (imm : Word) (s : State) : Host.Outcome State Fault Refusal :=
  let s1 := afterFetch (Instr.movRegImm16 r imm).instrWord s
  whenFetching s <|
    match Reg.ofIndex r with
    | some d => returned { s1.setReg d imm with ip := s1.ip + 2 }
    | none => raise .badRegIndex s1

/-- `MOV r, imm8` (R156): the low half of r0 to r3; at step 1 Fault(ByteOfWordReg) if r is 4 to 7 and Fault(BadRegIndex) if it is 8
to 15. -/
def execMovRegImm8 (r : Nibble) (imm : Byte) (s : State) : Host.Outcome State Fault Refusal :=
  let s1 := afterFetch (Instr.movRegImm8 r imm).instrWord s
  whenFetching s <|
    match indexFault r .byte with
    | some reason => raise reason s1
    | none => returned { regWrite s1 r .byte (imm.setWidth 16) with ip := s1.ip + 1 }

/-- `MOV r, r'` (R157): Fault(BadRegIndex) at step 2 if either index is 8 to 15. -/
def execMovRegReg (r : Nibble) (operand : Byte) (s : State) : Host.Outcome State Fault Refusal :=
  let s2 := afterOperandByte operand (afterFetch (Instr.movRegReg r operand).instrWord s)
  whenFetching s <|
    match Reg.ofIndex r, Reg.ofIndex (lowNibble operand) with
    | some d, some src => returned (s2.setReg d (s2.getReg src))
    | _, _ => raise .badRegIndex s2

/-- `MOV word[seg:imm16], imm16` (R158): Fault(BadSegmentIndex) at step 3 if seg is not 5, 6 or 7. -/
def execMovMemImm (seg : Nibble) (addr value : Word) (s : State) : Host.Outcome State Fault Refusal :=
  let s1 := afterFetch (Instr.movMemImm seg addr value).instrWord s
  let s3 := { s1 with t0 := addr, t1 := value, ip := s1.ip + 4, stepCtr := 3 }
  whenFetching s <|
    if isSegmentIndex seg then returned { s3 with mem := s3.mem.write .word (regRead s3 seg .word) addr value }
    else raise .badSegmentIndex s3

/-- A load through `[seg:r']` at a width code (R159, R160): the base register at step 2, then at step 3 the destination's index
before the segment's (R174). -/
def loadThroughSegment (wid : WidCode) (r : Nibble) (operand : Byte) (s2 : State) : State :=
  match Reg.ofIndex (lowNibble operand) with
  | none => raise .badRegIndex s2
  | some base =>
    let s3 := { s2 with t0 := s2.getReg base, stepCtr := 3 }
    match indexFault r wid with
    | some reason => raise reason s3
    | none =>
      if isSegmentIndex (highNibble operand) then
        let got := s3.mem.read wid (regRead s3 (highNibble operand) .word) s3.t0
        returned (regWrite { s3 with mem := got.2 } r wid got.1)
      else raise .badSegmentIndex s3

/-- `MOV r, word[seg:r']` (R159). -/
def execMovRegMemw (r : Nibble) (operand : Byte) (s : State) : Host.Outcome State Fault Refusal :=
  let s2 := afterOperandByte operand (afterFetch (Instr.movRegMemw r operand).instrWord s)
  whenFetching s (loadThroughSegment .word r operand s2)

/-- `MOV r, byte[seg:r']` (R160): the whole register, zero-extended. -/
def execMovRegMemb (r : Nibble) (operand : Byte) (s : State) : Host.Outcome State Fault Refusal :=
  let s2 := afterOperandByte operand (afterFetch (Instr.movRegMemb r operand).instrWord s)
  whenFetching s (loadThroughSegment .bytez r operand s2)

/-- `ADD r, r'` (R161). -/
def execAddRegReg (r : Nibble) (operand : Byte) (s : State) : Host.Outcome State Fault Refusal :=
  let s2 := afterOperandByte operand (afterFetch (Instr.addRegReg r operand).instrWord s)
  whenFetching s (aluOnRegs .add r operand s2)

/-- `ADD r, imm16` (R162). -/
def execAddRegImm16 (r : Nibble) (imm : Word) (s : State) : Host.Outcome State Fault Refusal :=
  let s2 := afterOperandWord imm (afterFetch (Instr.addRegImm16 r imm).instrWord s)
  whenFetching s (aluOnReg .add r imm s2)

/-- `SUB r, r'` (R163). -/
def execSubRegReg (r : Nibble) (operand : Byte) (s : State) : Host.Outcome State Fault Refusal :=
  let s2 := afterOperandByte operand (afterFetch (Instr.subRegReg r operand).instrWord s)
  whenFetching s (aluOnRegs .sub r operand s2)

/-- `SUB r, imm16` (R164). -/
def execSubRegImm16 (r : Nibble) (imm : Word) (s : State) : Host.Outcome State Fault Refusal :=
  let s2 := afterOperandWord imm (afterFetch (Instr.subRegImm16 r imm).instrWord s)
  whenFetching s (aluOnReg .sub r imm s2)

/-- `SHL r, imm8` (R165): T1 gets the count; only its low 4 bits act. -/
def execShlRegImm8 (r : Nibble) (imm : Byte) (s : State) : Host.Outcome State Fault Refusal :=
  let s1 := afterFetch (Instr.shlRegImm8 r imm).instrWord s
  let s2 := { s1 with t1 := imm.setWidth 16, ip := s1.ip + 1, stepCtr := 2 }
  whenFetching s (aluOnReg .shl r (imm.setWidth 16) s2)

/-- `JMP imm16` (R166). -/
def execJmp (slot : BitVec 3) (low : Nibble) (target : Word) (s : State) : Host.Outcome State Fault Refusal :=
  whenFetching s (returned { afterFetch (Instr.jmp slot low target).instrWord s with ip := target })

/-- `JZ imm16` (R167): Z at the FETCH. -/
def execJz (slot : BitVec 3) (low : Nibble) (target : Word) (s : State) : Host.Outcome State Fault Refusal :=
  let s1 := afterFetch (Instr.jz slot low target).instrWord s
  whenFetching s (returned { s1 with ip := if s.zf then target else s1.ip + 2 })

/-- `JNZ imm16` (R168): Z at the FETCH. -/
def execJnz (slot : BitVec 3) (low : Nibble) (target : Word) (s : State) : Host.Outcome State Fault Refusal :=
  let s1 := afterFetch (Instr.jnz slot low target).instrWord s
  whenFetching s (returned { s1 with ip := if s.zf then s1.ip + 2 else target })

/-- ILLEGAL (R169): halts as `HLT` does, it does not fault. -/
def execIllegal (word : Word) (s : State) : Host.Outcome State Fault Refusal :=
  whenFetching s { afterFetch word s with stepCtr := 2, run := .halted }

end Sys2Proof.Machine
end

