-- ==== Sys2Proof/Machine/MemOp.lean ====
section
/-! DEFINITION. The meanings of the rows of field MEM (43_memory_and_latch.md section 2): the tick of a control word whose MEM is
the row's code. What the code does stands in the phase operations of Ops, Operands, Flags and Tick. -/

namespace Sys2Proof.Machine

/-- `MEM.NONE`: no memory access (R135). -/
def execMemNone (cw : ControlWord) (s : State) : Host.Outcome State Fault Refusal :=
  runWord { cw with mem := .none } s

/-- `MEM.RDIP`: D <- MemRead(segment, IP) (R136). -/
def execMemRdip (cw : ControlWord) (s : State) : Host.Outcome State Fault Refusal :=
  runWord { cw with mem := .rdip } s

/-- `MEM.RDT`: D <- MemRead(segment, T0) (R137). -/
def execMemRdt (cw : ControlWord) (s : State) : Host.Outcome State Fault Refusal :=
  runWord { cw with mem := .rdt } s

/-- `MEM.WRT`: MemWrite(segment, T0, D) (R138). -/
def execMemWrt (cw : ControlWord) (s : State) : Host.Outcome State Fault Refusal :=
  runWord { cw with mem := .wrt } s

end Sys2Proof.Machine
end

