-- ==== Sys2Proof/Machine/Segment.lean ====
section
/-! DEFINITION. The meanings of the rows of field SEG (43_memory_and_latch.md section 1): the tick of a control word whose SEG is
the row's code. What the code does stands in the phase operations of Ops, Operands, Flags and Tick. -/

namespace Sys2Proof.Machine

/-- `SEG.NONE`: no segment; Fault(NoSegment) with a memory operation (R129). -/
def execSegNone (cw : ControlWord) (s : State) : Host.Outcome State Fault Refusal :=
  runWord { cw with seg := .none } s

/-- `SEG.CS`: the segment is CS (R130). -/
def execSegCs (cw : ControlWord) (s : State) : Host.Outcome State Fault Refusal :=
  runWord { cw with seg := .cs } s

/-- `SEG.SS`: the segment is SS (R131). -/
def execSegSs (cw : ControlWord) (s : State) : Host.Outcome State Fault Refusal :=
  runWord { cw with seg := .ss } s

/-- `SEG.SEGI`: the segment is the register of IW[3:0] (R132). -/
def execSegSegi (cw : ControlWord) (s : State) : Host.Outcome State Fault Refusal :=
  runWord { cw with seg := .segi } s

/-- `SEG.SEGO`: the segment is the register of OW[7:4] (R133). -/
def execSegSego (cw : ControlWord) (s : State) : Host.Outcome State Fault Refusal :=
  runWord { cw with seg := .sego } s

/-- `SEG.INT`: Fault(Unmodelled) with a memory operation, no effect without one (R134). -/
def execSegInt (cw : ControlWord) (s : State) : Host.Outcome State Fault Refusal :=
  runWord { cw with seg := .int } s

/-- `SEG.reserved6`: Fault(ReservedCode) (R63). -/
def execSegReserved6 (cw : ControlWord) (s : State) : Host.Outcome State Fault Refusal :=
  runWord { cw with seg := .reserved6 } s

/-- `SEG.reserved7`: Fault(ReservedCode) (R63). -/
def execSegReserved7 (cw : ControlWord) (s : State) : Host.Outcome State Fault Refusal :=
  runWord { cw with seg := .reserved7 } s

end Sys2Proof.Machine
end

