-- ==== Sys2Proof/Machine/StepJump.lean ====
section
/-! DEFINITION. The meanings of the rows of field CJC (40_sequencer.md section 4): the tick of a control word whose CJC is
the row's code. What the code does stands in the phase operations of Ops, Operands, Flags and Tick. -/

namespace Sys2Proof.Machine

/-- `CJC.NONE`: no step jump, CJT ignored (R89). -/
def execCjcNone (cw : ControlWord) (s : State) : Host.Outcome State Fault Refusal :=
  runWord { cw with cjc := .none } s

/-- `CJC.CJZ`: step <- CJT if Z = 1; Fault(StepTargetRange) if CJT is 16 or more (R90). -/
def execCjcCjz (cw : ControlWord) (s : State) : Host.Outcome State Fault Refusal :=
  runWord { cw with cjc := .cjz } s

/-- `CJC.CJC`: step <- CJT if C = 1; Fault(StepTargetRange) if CJT is 16 or more (R91). -/
def execCjcCjc (cw : ControlWord) (s : State) : Host.Outcome State Fault Refusal :=
  runWord { cw with cjc := .cjc } s

/-- `CJC.CJS`: step <- CJT if S = 1; Fault(StepTargetRange) if CJT is 16 or more (R92). -/
def execCjcCjs (cw : ControlWord) (s : State) : Host.Outcome State Fault Refusal :=
  runWord { cw with cjc := .cjs } s

/-- `CJT>=16 with CJC!=NONE`: Fault(StepTargetRange), whatever the flags (R62, R89). -/
def execCjtRange (cw : ControlWord) (s : State) : Host.Outcome State Fault Refusal :=
  runWord cw.forceOutOfRange s

end Sys2Proof.Machine
end

