-- ==== Sys2Proof/Machine/Width.lean ====
section
/-! DEFINITION. The meanings of the rows of field WID (41_bus_sources.md section 1): the tick of a control word whose WID is
the row's code. What the code does stands in the phase operations of Ops, Operands, Flags and Tick. -/

namespace Sys2Proof.Machine

/-- `WID.WORD`: 16 bits, whole registers, two memory bytes (R99). -/
def execWidWord (cw : ControlWord) (s : State) : Host.Outcome State Fault Refusal :=
  runWord { cw with wid := .word } s

/-- `WID.BYTE`: 8 bits, the low half (R100). -/
def execWidByte (cw : ControlWord) (s : State) : Host.Outcome State Fault Refusal :=
  runWord { cw with wid := .byte } s

/-- `WID.BYTEH`: 8 bits, the high half (R101). -/
def execWidByteh (cw : ControlWord) (s : State) : Host.Outcome State Fault Refusal :=
  runWord { cw with wid := .byteh } s

/-- `WID.BYTEZ`: 8 bits, a register written whole, zero-extended (R102). -/
def execWidBytez (cw : ControlWord) (s : State) : Host.Outcome State Fault Refusal :=
  runWord { cw with wid := .bytez } s

end Sys2Proof.Machine
end

