-- ==== Sys2Proof/Machine/Dispatch.lean ====
section
/-! DEFINITION. One arm per row of spec/opcode_table.json. -/

namespace Sys2Proof.Machine

open Sys2Proof

def exec (i : Instr) (s : State) : Host.Outcome State Fault Refusal :=
  match i with
  | .ipcNone cw => Sys2Proof.Machine.execIpcNone cw s
  | .ipcIpc1 cw => Sys2Proof.Machine.execIpcIpc1 cw s
  | .ipcIpc2 cw => Sys2Proof.Machine.execIpcIpc2 cw s
  | .ipcIpc4 cw => Sys2Proof.Machine.execIpcIpc4 cw s
  | .ipcJmp cw => Sys2Proof.Machine.execIpcJmp cw s
  | .ipcHlt cw => Sys2Proof.Machine.execIpcHlt cw s
  | .ipcRtn cw => Sys2Proof.Machine.execIpcRtn cw s
  | .ipcReserved7 cw => Sys2Proof.Machine.execIpcReserved7 cw s
  | .latNone cw => Sys2Proof.Machine.execLatNone cw s
  | .latIi cw => Sys2Proof.Machine.execLatIi cw s
  | .latOi cw => Sys2Proof.Machine.execLatOi cw s
  | .latReserved3 cw => Sys2Proof.Machine.execLatReserved3 cw s
  | .baNone cw => Sys2Proof.Machine.execBaNone cw s
  | .baR1 cw => Sys2Proof.Machine.execBaR1 cw s
  | .baT0 cw => Sys2Proof.Machine.execBaT0 cw s
  | .baT1 cw => Sys2Proof.Machine.execBaT1 cw s
  | .baSp cw => Sys2Proof.Machine.execBaSp cw s
  | .baIe cw => Sys2Proof.Machine.execBaIe cw s
  | .baReserved6 cw => Sys2Proof.Machine.execBaReserved6 cw s
  | .baReserved7 cw => Sys2Proof.Machine.execBaReserved7 cw s
  | .bbNone cw => Sys2Proof.Machine.execBbNone cw s
  | .bbR2 cw => Sys2Proof.Machine.execBbR2 cw s
  | .bbT0 cw => Sys2Proof.Machine.execBbT0 cw s
  | .bbT1 cw => Sys2Proof.Machine.execBbT1 cw s
  | .bbK1 cw => Sys2Proof.Machine.execBbK1 cw s
  | .bbK2 cw => Sys2Proof.Machine.execBbK2 cw s
  | .bbK4 cw => Sys2Proof.Machine.execBbK4 cw s
  | .bbK8 cw => Sys2Proof.Machine.execBbK8 cw s
  | .aluNone cw => Sys2Proof.Machine.execAluNone cw s
  | .aluAdd cw => Sys2Proof.Machine.execAluAdd cw s
  | .aluSub cw => Sys2Proof.Machine.execAluSub cw s
  | .aluOr cw => Sys2Proof.Machine.execAluOr cw s
  | .aluXor cw => Sys2Proof.Machine.execAluXor cw s
  | .aluAnd cw => Sys2Proof.Machine.execAluAnd cw s
  | .aluShl cw => Sys2Proof.Machine.execAluShl cw s
  | .aluShr cw => Sys2Proof.Machine.execAluShr cw s
  | .dstNone cw => Sys2Proof.Machine.execDstNone cw s
  | .dstR1 cw => Sys2Proof.Machine.execDstR1 cw s
  | .dstR2 cw => Sys2Proof.Machine.execDstR2 cw s
  | .dstT0 cw => Sys2Proof.Machine.execDstT0 cw s
  | .dstT1 cw => Sys2Proof.Machine.execDstT1 cw s
  | .dstSp cw => Sys2Proof.Machine.execDstSp cw s
  | .dstIe cw => Sys2Proof.Machine.execDstIe cw s
  | .dstReserved7 cw => Sys2Proof.Machine.execDstReserved7 cw s
  | .widWord cw => Sys2Proof.Machine.execWidWord cw s
  | .widByte cw => Sys2Proof.Machine.execWidByte cw s
  | .widByteh cw => Sys2Proof.Machine.execWidByteh cw s
  | .widBytez cw => Sys2Proof.Machine.execWidBytez cw s
  | .segNone cw => Sys2Proof.Machine.execSegNone cw s
  | .segCs cw => Sys2Proof.Machine.execSegCs cw s
  | .segSs cw => Sys2Proof.Machine.execSegSs cw s
  | .segSegi cw => Sys2Proof.Machine.execSegSegi cw s
  | .segSego cw => Sys2Proof.Machine.execSegSego cw s
  | .segInt cw => Sys2Proof.Machine.execSegInt cw s
  | .segReserved6 cw => Sys2Proof.Machine.execSegReserved6 cw s
  | .segReserved7 cw => Sys2Proof.Machine.execSegReserved7 cw s
  | .memNone cw => Sys2Proof.Machine.execMemNone cw s
  | .memRdip cw => Sys2Proof.Machine.execMemRdip cw s
  | .memRdt cw => Sys2Proof.Machine.execMemRdt cw s
  | .memWrt cw => Sys2Proof.Machine.execMemWrt cw s
  | .cjcNone cw => Sys2Proof.Machine.execCjcNone cw s
  | .cjcCjz cw => Sys2Proof.Machine.execCjcCjz cw s
  | .cjcCjc cw => Sys2Proof.Machine.execCjcCjc cw s
  | .cjcCjs cw => Sys2Proof.Machine.execCjcCjs cw s
  | .cjtRange cw => Sys2Proof.Machine.execCjtRange cw s
  | .nop low => Sys2Proof.Machine.execNop low s
  | .hlt low => Sys2Proof.Machine.execHlt low s
  | .movRegImm16 r imm => Sys2Proof.Machine.execMovRegImm16 r imm s
  | .movRegImm8 r imm => Sys2Proof.Machine.execMovRegImm8 r imm s
  | .movRegReg r operand => Sys2Proof.Machine.execMovRegReg r operand s
  | .movMemImm seg addr value => Sys2Proof.Machine.execMovMemImm seg addr value s
  | .movRegMemw r operand => Sys2Proof.Machine.execMovRegMemw r operand s
  | .movRegMemb r operand => Sys2Proof.Machine.execMovRegMemb r operand s
  | .addRegReg r operand => Sys2Proof.Machine.execAddRegReg r operand s
  | .addRegImm16 r imm => Sys2Proof.Machine.execAddRegImm16 r imm s
  | .subRegReg r operand => Sys2Proof.Machine.execSubRegReg r operand s
  | .subRegImm16 r imm => Sys2Proof.Machine.execSubRegImm16 r imm s
  | .shlRegImm8 r imm => Sys2Proof.Machine.execShlRegImm8 r imm s
  | .jmp slot low target => Sys2Proof.Machine.execJmp slot low target s
  | .jz slot low target => Sys2Proof.Machine.execJz slot low target s
  | .jnz slot low target => Sys2Proof.Machine.execJnz slot low target s
  | .illegal word => Sys2Proof.Machine.execIllegal word s

end Sys2Proof.Machine
end

