-- ==== Sys2Proof/Machine/Fetch.lean ====
section
/-! DEFINITION. What a step fetches: the control word of the dispatch address (40_sequencer.md R76), or the macro-instruction at CS:IP
where a step may be a whole one (R97, log entries 6 and 7); and the placing of either for the host. -/

namespace Sys2Proof.Machine

/-- The dispatch address (R76). -/
def dispatchAddress (s : State) : Word := (s.iw &&& 0xFFF0) ||| s.stepCtr.setWidth 16

/-- The control word a tick reads (R29, R76). -/
def currentWord (s : State) : ControlBits := s.romRead (dispatchAddress s)

/-- One tick: the instruction of the current control word (R75). -/
def engineTick (s : State) : Host.Outcome State Fault Refusal := exec (decode (currentWord s)) s

/-- The location of the k-th byte from CS:IP on. -/
def codeLocation (s : State) (k : Nat) : Nat := s.mem.locate s.cs (s.ip + BitVec.ofNat 16 k)

/-- The bytes held at CS:IP and after. -/
def codeBytes (s : State) (n : Nat) : List Byte := (List.range n).map fun k => s.mem.byteAt (codeLocation s k)

/-- The control store holds the example ROM's procedure in the block of an instruction word latched now (R69, R150). -/
def blockIsExample (s : State) (w : Word) : Bool :=
  let block := mergeFlags s w &&& 0xFFF0
  (List.range (exampleBlock block).length).all fun k =>
    s.romRead (block ||| BitVec.ofNat 16 k) == exampleRom (block ||| BitVec.ofNat 16 k)

/-- The macro-instruction that begins at this state: the engine is Fetching at step 0 of a block whose step 0 is FETCH, the
instruction's bytes are RAM-like, and the control store holds the example ROM's procedure for it. -/
def macroAt (s : State) : Option Instr :=
  if s.run = .fetching ∧ s.stepCtr = 0 ∧ currentWord s = cwFetch then
    match decodeInstr (codeBytes s 6) with
    | .ok (i, rest) =>
      if (List.range (6 - rest.length)).all (fun k => !s.mem.windows.contains (codeLocation s k)) &&
          blockIsExample s i.instrWord then some i
      else none
    | .error _ => none
  else none

/-- One step at the instruction grain: the macro-instruction that begins here, or else one tick (R97). -/
def instructionStep (s : State) : Host.Outcome State Fault Refusal :=
  match macroAt s with
  | some i => exec i s
  | none => engineTick s

/-- The memory with a list of bytes at (seg, off) and the offsets after it, wrapping in the segment. -/
def Memory.place (m : Memory) (seg : Word) : Word → List Byte → Memory
  | _, [] => m
  | off, b :: rest => (m.writeByte seg off b).place seg (off + 1) rest

/-- A control word placed where the next tick reads it: at the dispatch address. -/
def placeControlWord (s : State) (w : ControlBits) : State :=
  { s with run := .fetching, grain := .tick, rom := romPlace s.rom (dispatchAddress s) w }

/-- An instruction's bytes placed where the next step begins it: at CS:IP, in a memory that is all RAM and decodes (segment,
offset) to itself, with the example ROM, at step 0, a step being a macro-instruction. -/
def placeInstruction (s : State) (bytes : List Byte) : State :=
  { s with
    run := .fetching
    stepCtr := 0
    grain := .instruction
    rom := []
    mem := ({ s.mem with phys := [], windows := [] } : Memory).place s.cs s.ip bytes }

end Sys2Proof.Machine
end

