-- ==== Sys2Proof/Machine/Step.lean ====
section
/-! DEFINITION. One step of the machine, and the placing of a table row's word for the host. -/

namespace Sys2Proof.Machine

/-- One step: a tick (R75), or at the instruction grain a macro-instruction where R97 allows it. -/
def step (s : State) : Host.Outcome State Fault Refusal :=
  match s.grain with
  | .tick => engineTick s
  | .instruction => instructionStep s

/-- `s` with the instruction of a table row's number placed so that the very next step runs it (log entry 10). -/
def State.withFetchWord (s : State) (nbits w : Nat) : State :=
  if isInstructionRow nbits w then placeInstruction s (rowBytes w) else placeControlWord s (BitVec.ofNat 32 w)

end Sys2Proof.Machine
end

