-- ==== Sys2Proof/Machine/Run.lean ====
section
/-! DEFINITION. A run of the engine with a tick budget, and the report of how it ended (70_reset_and_hazards.md R195). -/

namespace Sys2Proof.Machine

/-- The three ways a run ends (R195). -/
inductive RunEnd where
  /-- the engine entered Halted: the normal end -/
  | halted
  /-- the engine entered Faulted: a failure of the ROM or program -/
  | faulted (reason : FaultReason)
  /-- the host stopped ticking: the budget ran out with the engine still Fetching -/
  | budgetExhausted
deriving DecidableEq, Repr

/-- What a run reports: how it ended, and the state after its last tick (R195). -/
structure RunReport where
  ending : RunEnd
  final : State
deriving DecidableEq, Repr

/-- A test must treat this end as a failure (R195). -/
def RunEnd.isFailure : RunEnd → Bool
  | .halted => false
  | .faulted _ => true
  | .budgetExhausted => false

/-- The end that the engine has reached by itself, if any. -/
def State.ownEnd (s : State) : Option RunEnd :=
  match s.run with
  | .fetching => none
  | .halted => some .halted
  | .faulted reason => some (.faulted reason)

/-- Ticks until `run` is not Fetching or the budget is used up, and says which (R192 item 4, R195). An engine that stops in the
last tick of its budget has ended by itself. -/
def runTicks : Nat → State → Host.Outcome RunReport Fault Refusal
  | 0, s => .next { ending := s.ownEnd.getD .budgetExhausted, final := s }
  | fuel + 1, s =>
    match s.ownEnd with
    | some ending => .next { ending, final := s }
    | none =>
      match engineTick s with
      | .next t => runTicks fuel t
      | .fault r => .fault r
      | .refused r => .refused r

end Sys2Proof.Machine
end

