-- ==== Sys2Proof/Safety.lean ====
section
/-! DEFINITION. What counts as a good state and a good run. -/

namespace Sys2Proof.Machine

/-- The run has not failed: the engine is Fetching or Halted (R195). -/
def State.notFaulted (s : State) : Bool :=
  match s.run with
  | .fetching => true
  | .halted => true
  | .faulted _ => false

/-- The canonical forms of the state's maps: memory and the control store are in the one form that makes equal maps equal data. -/
def State.wf (s : State) : Bool := s.mem.wf && romWf s.rom

/-- `n` ticks of the engine. -/
def ticks : Nat → State → Host.Outcome State Fault Refusal
  | 0, s => .next s
  | n + 1, s =>
    match engineTick s with
    | .next s' => ticks n s'
    | .fault r => .fault r
    | .refused r => .refused r

/-- The ticks a macro-instruction of the example ROM takes, from its FETCH to its `RTN` or `HLT` (70_reset_and_hazards.md R204); 1
for a control word. -/
def tickCount : Instr → Nat
  | .nop _ => 2
  | .hlt _ => 2
  | .movRegImm16 _ _ => 3
  | .movRegImm8 _ _ => 3
  | .movRegReg _ _ => 4
  | .movMemImm _ _ _ => 5
  | .movRegMemw _ _ => 5
  | .movRegMemb _ _ => 5
  | .addRegReg _ _ => 4
  | .addRegImm16 _ _ => 4
  | .subRegReg _ _ => 4
  | .subRegImm16 _ _ => 4
  | .shlRegImm8 _ _ => 4
  | .jmp _ _ _ => 3
  | .jz _ _ _ => 3
  | .jnz _ _ _ => 3
  | .illegal _ => 2
  | _ => 1

end Sys2Proof.Machine
end

