-- ==== Sys2Proof/WellFormed.lean ====
section
/-! DEFINITION. Which terms of `Instr` stand for a word of their row: the carried control word holds the row's code, a
step-jump row holds a legal target, and ILLEGAL carries a word that no procedure declares. -/

namespace Sys2Proof

/-- The term stands for a word of its row of spec/opcode_table.json. -/
def Instr.wellFormed : Instr → Bool
  | .ipcNone cw => cw.ipc == .none
  | .ipcIpc1 cw => cw.ipc == .ipc1
  | .ipcIpc2 cw => cw.ipc == .ipc2
  | .ipcIpc4 cw => cw.ipc == .ipc4
  | .ipcJmp cw => cw.ipc == .jmp
  | .ipcHlt cw => cw.ipc == .hlt
  | .ipcRtn cw => cw.ipc == .rtn
  | .ipcReserved7 cw => cw.ipc == .reserved7
  | .latNone cw => cw.lat == .none
  | .latIi cw => cw.lat == .ii
  | .latOi cw => cw.lat == .oi
  | .latReserved3 cw => cw.lat == .reserved3
  | .baNone cw => cw.ba == .none
  | .baR1 cw => cw.ba == .r1
  | .baT0 cw => cw.ba == .t0
  | .baT1 cw => cw.ba == .t1
  | .baSp cw => cw.ba == .sp
  | .baIe cw => cw.ba == .ie
  | .baReserved6 cw => cw.ba == .reserved6
  | .baReserved7 cw => cw.ba == .reserved7
  | .bbNone cw => cw.bb == .none
  | .bbR2 cw => cw.bb == .r2
  | .bbT0 cw => cw.bb == .t0
  | .bbT1 cw => cw.bb == .t1
  | .bbK1 cw => cw.bb == .k1
  | .bbK2 cw => cw.bb == .k2
  | .bbK4 cw => cw.bb == .k4
  | .bbK8 cw => cw.bb == .k8
  | .aluNone cw => cw.alu == .none
  | .aluAdd cw => cw.alu == .add
  | .aluSub cw => cw.alu == .sub
  | .aluOr cw => cw.alu == .or
  | .aluXor cw => cw.alu == .xor
  | .aluAnd cw => cw.alu == .and
  | .aluShl cw => cw.alu == .shl
  | .aluShr cw => cw.alu == .shr
  | .dstNone cw => cw.dst == .none
  | .dstR1 cw => cw.dst == .r1
  | .dstR2 cw => cw.dst == .r2
  | .dstT0 cw => cw.dst == .t0
  | .dstT1 cw => cw.dst == .t1
  | .dstSp cw => cw.dst == .sp
  | .dstIe cw => cw.dst == .ie
  | .dstReserved7 cw => cw.dst == .reserved7
  | .widWord cw => cw.wid == .word
  | .widByte cw => cw.wid == .byte
  | .widByteh cw => cw.wid == .byteh
  | .widBytez cw => cw.wid == .bytez
  | .segNone cw => cw.seg == .none
  | .segCs cw => cw.seg == .cs
  | .segSs cw => cw.seg == .ss
  | .segSegi cw => cw.seg == .segi
  | .segSego cw => cw.seg == .sego
  | .segInt cw => cw.seg == .int
  | .segReserved6 cw => cw.seg == .reserved6
  | .segReserved7 cw => cw.seg == .reserved7
  | .memNone cw => cw.mem == .none
  | .memRdip cw => cw.mem == .rdip
  | .memRdt cw => cw.mem == .rdt
  | .memWrt cw => cw.mem == .wrt
  | .cjcNone cw => cw.cjc == .none
  | .cjcCjz cw => cw.cjc == .cjz && !cw.targetOutOfRange
  | .cjcCjc cw => cw.cjc == .cjc && !cw.targetOutOfRange
  | .cjcCjs cw => cw.cjc == .cjs && !cw.targetOutOfRange
  | .cjtRange cw => cw.targetOutOfRange
  | .illegal word => !isDeclared word
  | .nop _ | .hlt _ | .movRegImm16 _ _ | .movRegImm8 _ _ | .movRegReg _ _ | .movMemImm _ _ _ | .movRegMemw _ _
  | .movRegMemb _ _ | .addRegReg _ _ | .addRegImm16 _ _ | .subRegReg _ _ | .subRegImm16 _ _ | .shlRegImm8 _ _ | .jmp _ _ _
  | .jz _ _ _ | .jnz _ _ _ => true

/-- Well-formedness as a proposition. -/
abbrev Instr.WellFormed (i : Instr) : Prop := i.wellFormed = true

end Sys2Proof
end

