-- ==== Sys2Proof/Certificates/Slice0/Obligations.lean ====
section
/-! DEFINITION. The statements for the provers. The definitions under `Sys2Proof.Claims` say in plain numbers what the rules of
spec/ say of a tick's end; they are used by the statements only. -/

namespace Sys2Proof.Claims

open Sys2Proof.Machine

/-- The word runs: the engine is Fetching, the word is not `RTN`, and no check of R78 fails. -/
def Ready (cw : ControlWord) (s : State) : Prop := s.run = .fetching ∧ cw.ipc ≠ .rtn ∧ validate cw s = none

/-- What a register index reads at a width code, as a number (R25). -/
def half (wid : WidCode) (v : Word) : Nat :=
  match wid with
  | .word => v.toNat
  | .byte => v.toNat % 256
  | .byteh => v.toNat / 256
  | .bytez => v.toNat % 256

/-- What a register holds after a write of `d` at a width code, as a number (R26). -/
def merged (wid : WidCode) (old d : Word) : Nat :=
  match wid with
  | .word => d.toNat
  | .byte => old.toNat / 256 * 256 + d.toNat % 256
  | .byteh => d.toNat % 256 * 256 + old.toNat % 256
  | .bytez => d.toNat % 256

/-- A direct source's low w bits (R117). -/
def low (wid : WidCode) (v : Word) : Word := if wid = .word then v else BitVec.ofNat 16 (v.toNat % 256)

/-- The data bus and the memory after the memory phase, from the ALU's result and the segment value (R135 to R138). -/
def bus (cw : ControlWord) (s : State) (seg d : Word) : Word × Memory :=
  match cw.mem with
  | .none => (d, s.mem)
  | .rdip => s.mem.read cw.wid seg s.ip
  | .rdt => s.mem.read cw.wid seg s.t0
  | .wrt => (d, s.mem.write cw.wid seg s.t0 d)

/-- The state a valid word ends in, component by component (R75, R96), from the ALU's flags, the data bus and the memory. -/
structure TickEnd (cw : ControlWord) (s : State) (out : AluOut) (d : Word) (m : Memory) (t : State) : Prop where
  iw : t.iw = if cw.lat = .ii then mergeFlags s d else s.iw
  ow : t.ow = if cw.lat = .oi then d else s.ow
  regs : ∀ r, (t.getReg r).toNat =
    if (cw.dst = .r1 ∧ Reg.ofIndex s.index1 = some r) ∨ (cw.dst = .r2 ∧ Reg.ofIndex s.index2 = some r) then
      merged cw.wid (s.getReg r) d
    else if cw.dst = .sp ∧ r = .sp then d.toNat else (s.getReg r).toNat
  t0 : t.t0 = if cw.dst = .t0 then d else s.t0
  t1 : t.t1 = if cw.dst = .t1 then d else s.t1
  ie : t.ie = if cw.dst = .ie then decide (d.toNat % 2 = 1) else s.ie
  zf : t.zf = if cw.alu = .none then s.zf else out.z
  cf : t.cf = if cw.alu = .none then s.cf else out.c
  sf : t.sf = if cw.alu = .none then s.sf else out.s
  ip : t.ip = if cw.ipc = .ipc1 then s.ip + 1 else if cw.ipc = .ipc2 then s.ip + 2 else if cw.ipc = .ipc4 then s.ip + 4
    else if cw.ipc = .jmp then d else s.ip
  stepCtr : t.stepCtr =
    if (cw.cjc = .cjz ∧ s.zf) ∨ (cw.cjc = .cjc ∧ s.cf) ∨ (cw.cjc = .cjs ∧ s.sf) then BitVec.ofNat 4 cw.cjt.toNat
    else s.stepCtr + 1
  run : t.run = if cw.ipc = .hlt then .halted else .fetching
  mem : t.mem = m
  rom : t.rom = s.rom
  grain : t.grain = s.grain

/-- The word ends as its rules say, with these two bus values and this segment value. -/
def Ends (cw : ControlWord) (s : State) (A B seg : Word) (t : State) : Prop :=
  let out := alu cw.alu A B (widthBits cw.wid)
  TickEnd cw s out (bus cw s seg out.d).1 (bus cw s seg out.d).2 t

/-- The word ends as its rules say, the ALU giving the result `r` and the carry `c` (R118). -/
def EndsAlu (cw : ControlWord) (s : State) (r : Nat) (c : Bool) (t : State) : Prop :=
  let out : AluOut :=
    { d := BitVec.ofNat 16 r, z := decide (r = 0), c := c, s := decide (2 ^ (widthBits cw.wid - 1) ≤ r) }
  TickEnd cw s out (bus cw s (segValue cw.seg s) out.d).1 (bus cw s (segValue cw.seg s) out.d).2 t

/-- Bus A of a word, modulo 2^w. -/
def aOf (cw : ControlWord) (s : State) : Nat := (busA cw.ba cw.wid s).toNat % 2 ^ widthBits cw.wid

/-- Bus B of a word, modulo 2^w. -/
def bOf (cw : ControlWord) (s : State) : Nat := (busB cw.bb cw.wid s).toNat % 2 ^ widthBits cw.wid

/-- A shift amount, B[3:0] (R125). -/
def amount (cw : ControlWord) (s : State) : Nat := (busB cw.bb cw.wid s).toNat % 16

/-- The data bus of a word. -/
def dataBus (cw : ControlWord) (s : State) : Word :=
  (bus cw s (segValue cw.seg s) (alu cw.alu (busA cw.ba cw.wid s) (busB cw.bb cw.wid s) (widthBits cw.wid)).d).1

/-- The first reason whose condition holds. -/
def firstOf : List (Bool × FaultReason) → Option FaultReason
  | [] => none
  | (c, f) :: rest => if c then some f else firstOf rest

/-- An index is 5, 6 or 7 (R132). -/
def isSeg (i : Nat) : Bool := i == 5 || i == 6 || i == 7

/-- A location is RAM-like. -/
def ram (m : Memory) (seg off : Word) : Prop := m.locate seg off ∉ m.windows

/-- The flags of a 16-bit result (R118). -/
def flags (s : State) (r : Nat) (c : Bool) : State :=
  { s with zf := decide (r = 0), cf := c, sf := decide (2 ^ 15 ≤ r) }

/-- The word latched by FETCH (R140), in numbers: bits 6:4 of a word with bit 15 set become S, C, Z. -/
def latched (s : State) (w : Word) : Word :=
  if 32768 ≤ w.toNat then
    BitVec.ofNat 16 (w.toNat / 128 * 128 + s.sf.toNat * 64 + s.cf.toNat * 32 + s.zf.toNat * 16 + w.toNat % 16)
  else w

/-- The two bytes of a word, the more significant first. -/
def bytes2 (w : Nat) : List Byte := [BitVec.ofNat 8 (w / 256), BitVec.ofNat 8 w]

/-- The encoding of a macro-instruction, its instruction word and then its operand bytes, and the procedure of its block. -/
def Declared (i : Instr) (word : Nat) (operands : List Byte) (block : Word) (procedure : List ControlBits) : Prop :=
  encode i = bytes2 word ++ operands ∧ exampleBlock block = procedure

end Sys2Proof.Claims

open Sys2Proof Sys2Proof.Machine Sys2Proof.Claims

/-! ### Reset, invariants, parameters -/

/-- R32: the value of every component of the engine state after reset, the machine's first and any later one; a later reset touches
neither memory nor the control store (R189). -/
def Obligations.ResetValues : Prop :=
  (∀ s : State, s = State.reset ∨ (∃ u, s = engineReset u) →
    (s.r0 = 0 ∧ s.r1 = 0 ∧ s.r2 = 0 ∧ s.r3 = 0) ∧ (s.sp = 0 ∧ s.ss = 0 ∧ s.cs = 0 ∧ s.ds = 0) ∧
      (s.ip = 0 ∧ s.iw = 0 ∧ s.ow = 0 ∧ s.t0 = 0 ∧ s.t1 = 0) ∧ (s.zf = false ∧ s.cf = false ∧ s.sf = false) ∧
      s.ie = false ∧ s.stepCtr = 0 ∧ s.run = .fetching) ∧
  ∀ u : State, (engineReset u).mem = u.mem ∧ (engineReset u).rom = u.rom

/-- The model's own: memory and the control store of the reset state are in canonical form (log entries 1, 2, 5). -/
def Obligations.ResetMapsCanonical : Prop := State.reset.wf = true

/-- The model's own invariant: every step keeps the canonical forms of memory and the control store. -/
def Obligations.StepKeepsCanonicalForm : Prop :=
  ∀ s t : State, s.wf = true → step s = .next t → t.wf = true

/-- No step changes the control store, PHYS, the windows or the step grain ('immutable afterward', R29; R50; log entries 2, 3,
6). -/
def Obligations.StepKeepsParameters : Prop :=
  ∀ s t : State, step s = .next t →
    t.rom = s.rom ∧ t.mem.phys = s.mem.phys ∧ t.mem.windows = s.mem.windows ∧ t.grain = s.grain

/-- No instruction and no step of the model stops it: a fault of the spec is a run state (log entry 11). -/
def Obligations.EveryInstructionAnswersNext : Prop :=
  (∀ (i : Instr) (s : State), ∃ t, exec i s = .next t) ∧ ∀ s : State, ∃ t, step s = .next t

/-- R80: a tick in Halted or Faulted does nothing, for any number of ticks, and so does a step at either grain. -/
def Obligations.StoppedEngineStaysStopped : Prop :=
  ∀ (s : State) (n : Nat), s.run ≠ .fetching → step s = .next s ∧ ticks n s = .next s ∧ Sys2Proof.core.run n s = .next s

/-- R195: a run with a tick budget always reports, and its final state is the one after the ticks of the budget. It ends in one of three
ways: Halted, Faulted with its reason, which alone is a failure, or the budget used up, which it reports exactly if the engine was
Fetching after every one of its ticks. -/
def Obligations.RunReportsHowItEnds : Prop :=
  ∀ (fuel : Nat) (s : State), ∃ report, runTicks fuel s = .next report ∧ ticks fuel s = .next report.final ∧
    (report.ending = .halted ↔ report.final.run = .halted) ∧
    (∀ reason, report.ending = .faulted reason ↔ report.final.run = .faulted reason) ∧
    (report.ending = .budgetExhausted ↔ ∀ n, n ≤ fuel → ∃ t, ticks n s = .next t ∧ t.run = .fetching) ∧
    report.ending.isFailure = !report.final.notFaulted

/-! ### Fetch and decode -/

/-- R76: the control word of a tick is the one at `(IW & 0xFFF0) | step`, and the tick is `exec` of any of its ten readings. -/
def Obligations.TickRunsDecodedWord : Prop :=
  ∀ (s : State) (f : Field), s.grain = .tick →
    step s = exec (decodeIn f (s.romRead (BitVec.ofNat 16 (s.iw.toNat / 16 * 16 + s.stepCtr.toNat)))) s

/-- At the instruction grain a step is `exec` of the macro-instruction at CS:IP, where the engine is at step 0 of a block that
fetches, the instruction's bytes are RAM-like and the ROM holds the example ROM's block for it (log entries 6, 7). -/
def Obligations.InstructionStepRunsDecoded : Prop :=
  ∀ (s : State) (i : Instr) (rest : List Byte), s.grain = .instruction → s.run = .fetching → s.stepCtr = 0 →
    currentWord s = cwFetch → decodeInstr (codeBytes s 6) = .ok (i, rest) →
    (∀ k, k < 6 - rest.length → codeLocation s k ∉ s.mem.windows) → blockIsExample s i.instrWord = true →
    step s = exec i s

/-- The model's own (log entry 10): after `withFetchWord` the next step runs the table row's instruction. -/
def Obligations.PlacedRowRunsNext : Prop :=
  ∀ (s : State) (nbits w : Nat) (i : Instr), s.wf = true → decodeTableWord nbits w = some i →
    step (s.withFetchWord nbits w) = exec i (s.withFetchWord nbits w)

/-- Decoding reads back every well-formed row of a control-word field, whatever bytes follow. -/
def Obligations.DecodeReadsBackFieldRows : Prop :=
  ∀ (i : Instr) (f : Field) (rest : List Byte), i.WellFormed → i.field? = some f →
    decodeControlBytes f (encode i ++ rest) = .ok (i, rest)

/-- Decoding reads back every well-formed instruction word with its operand bytes, whatever bytes follow. -/
def Obligations.DecodeReadsBackInstructionWords : Prop :=
  ∀ (i : Instr) (rest : List Byte), i.WellFormed → i.field? = none → decodeInstr (encode i ++ rest) = .ok (i, rest)

/-- R52 to R61: the place of every field of a control word and the option of every code; CJT is the number in bits 31:26. -/
def Obligations.FieldLayout : Prop :=
  ∀ w : ControlBits,
    let cw := decodeControl w
    let n := w.toNat
    [IpcCode.none, .ipc1, .ipc2, .ipc4, .jmp, .hlt, .rtn, .reserved7][n % 8]? = some cw.ipc ∧
    [LatCode.none, .ii, .oi, .reserved3][n / 2 ^ 3 % 4]? = some cw.lat ∧
    [BaCode.none, .r1, .t0, .t1, .sp, .ie, .reserved6, .reserved7][n / 2 ^ 5 % 8]? = some cw.ba ∧
    [BbCode.none, .r2, .t0, .t1, .k1, .k2, .k4, .k8][n / 2 ^ 8 % 8]? = some cw.bb ∧
    [AluCode.none, .add, .sub, .or, .xor, .and, .shl, .shr][n / 2 ^ 11 % 8]? = some cw.alu ∧
    [DstCode.none, .r1, .r2, .t0, .t1, .sp, .ie, .reserved7][n / 2 ^ 14 % 8]? = some cw.dst ∧
    [WidCode.word, .byte, .byteh, .bytez][n / 2 ^ 17 % 4]? = some cw.wid ∧
    [SegCode.none, .cs, .ss, .segi, .sego, .int, .reserved6, .reserved7][n / 2 ^ 19 % 8]? = some cw.seg ∧
    [MemCode.none, .rdip, .rdt, .wrt][n / 2 ^ 22 % 4]? = some cw.mem ∧
    [CjcCode.none, .cjz, .cjc, .cjs][n / 2 ^ 24 % 4]? = some cw.cjc ∧
    cw.cjt.toNat = n / 2 ^ 26

/-- R51: every one of the 2^32 words decodes, under each field to a well-formed row of that field, and its encoding is the word
again. -/
def Obligations.EveryControlWordDecodes : Prop :=
  ∀ (w : ControlBits) (f : Field), (decodeIn f w).WellFormed ∧ (decodeIn f w).field? = some f ∧
    (decodeIn f w).controlWord? = some (decodeControl w) ∧ encodeControl (decodeControl w) = w

/-- The model's own (log entry 8): the ten readings of a control word have one meaning. -/
def Obligations.ReadingsOfAWordAgree : Prop :=
  ∀ (f g : Field) (w : ControlBits) (s : State), exec (decodeIn f w) s = exec (decodeIn g w) s

/-- A word decodes to ILLEGAL exactly if no procedure is declared for its block (R152, R169); every two bytes or more that hold an
undeclared word decode. -/
def Obligations.UndeclaredWordsAreIllegal : Prop :=
  ∀ (h l : Byte) (rest : List Byte),
    (isDeclared (wordOfBytes h l) = false → decodeInstr (h :: l :: rest) = .ok (.illegal (wordOfBytes h l), rest)) ∧
    (isDeclared (wordOfBytes h l) = true → ∀ w r, decodeInstr (h :: l :: rest) ≠ .ok (.illegal w, r))

/-- R69: the opcode address of a memory word is `{w[15:7], S, C, Z, 0000}` for a one-operand word and `{w[15:4], 0000}`
otherwise. -/
def Obligations.OpcodeAddress : Prop :=
  ∀ (s : State) (w : Word), ((mergeFlags s w) &&& 0xFFF0).toNat =
    if 32768 ≤ w.toNat then w.toNat / 128 * 128 + s.sf.toNat * 64 + s.cf.toNat * 32 + s.zf.toNat * 16
    else w.toNat / 16 * 16

/-- Words written out from the encoding tables decode to the fields and operands that the tables give (R52 to R62, R151 to R168). Which
row of the opcode table `decode` names a control word by, where it lies under several (BA.T0 and not DST.R1 for 0x00064040, the row
of the illegal step target for 0x41000000), is the model's choice (log entries 8 and 16). -/
def Obligations.WrittenWordsDecode : Prop :=
  decode 0x0048000A = .ipcIpc2 { ipc := .ipc2, lat := .ii, seg := .cs, mem := .rdip } ∧
  decode 0x00064040 = .baT0 { ba := .t0, dst := .r1, wid := .bytez } ∧
  decode 0x1D001340 = .baT0 { ba := .t0, bb := .t1, alu := .sub, cjc := .cjz, cjt := 7 } ∧
  decode 0x41000000 = .cjtRange { cjc := .cjz, cjt := 16 } ∧
  decodeInstr [0x08, 0xB2, 0xBE, 0xEF] = .ok (.movRegImm16 2 0xBEEF, []) ∧
  decodeInstr [0x0A, 0x37, 0x00, 0x80, 0x12, 0x34] = .ok (.movMemImm 7 0x0080 0x1234, []) ∧
  decodeInstr [0x99, 0xF5, 0x00, 0x10] = .ok (.jz 7 5 0x0010, []) ∧
  decodeInstr [0xFF, 0xFF] = .ok (.illegal 0xFFFF, [])

/-! ### Faults -/

/-- R175: a word with a fault puts the engine in Faulted with that reason and changes nothing else, under every reading. -/
def Obligations.FaultChangesOnlyTheRunState : Prop :=
  ∀ (i : Instr) (cw : ControlWord) (s : State) (f : FaultReason), i.controlWord? = some cw → s.run = .fetching →
    cw.ipc ≠ .rtn → validate cw s = some f → exec i s = .next { s with run := .faulted f }

/-- R173 and R174: the conditions of the fault reasons and the order in which they are reported, one reason a tick; a word whose IPC is
`RTN` is checked for nothing, a faulting `HLT` word faults like any other. -/
def Obligations.FaultPriority : Prop :=
  ∀ (j : Instr) (cw : ControlWord) (s : State), j.controlWord? = some cw → s.run = .fetching →
    let i := s.iw.toNat % 16
    let o := s.ow.toNat % 16
    let r1 := cw.ba == .r1 || cw.dst == .r1
    let r2 := cw.bb == .r2 || cw.dst == .r2
    let m := cw.mem != .none
    let reason := firstOf
      [ (cw.ipc == .reserved7 || cw.lat == .reserved3 || cw.ba == .reserved6 || cw.ba == .reserved7 ||
          cw.dst == .reserved7 || cw.seg == .reserved6 || cw.seg == .reserved7, .reservedCode),
        (cw.cjc != .none && decide (16 ≤ cw.cjt.toNat), .stepTargetRange),
        (r1 && decide (8 ≤ i), .badRegIndex),
        (r1 && decide (4 ≤ i) && cw.wid != .word, .byteOfWordReg),
        (r2 && decide (8 ≤ o), .badRegIndex),
        (r2 && decide (4 ≤ o) && cw.wid != .word, .byteOfWordReg),
        (m && cw.seg == .none, .noSegment),
        (m && cw.seg == .int, .unmodelled),
        (m && cw.seg == .segi && !isSeg i, .badSegmentIndex),
        (m && cw.seg == .sego && !isSeg (s.ow.toNat / 16 % 16), .badSegmentIndex) ]
    validate cw s = reason ∧
      (cw.ipc = .rtn → exec j s = .next { s with stepCtr := 0 }) ∧
      (cw.ipc ≠ .rtn →
        (∀ f, reason = some f → exec j s = .next { s with run := .faulted f }) ∧
        (reason = none → ∃ t, exec j s = .next t ∧ t.run = if cw.ipc = .hlt then .halted else .fetching))

/-- R63: the rows of the reserved codes fault with ReservedCode, whatever the other fields, unless the word is `RTN`. -/
def Obligations.ReservedCodesFault : Prop :=
  ∀ (cw : ControlWord) (s : State), s.run = .fetching →
    exec (.ipcReserved7 cw) s = .next { s with run := .faulted .reservedCode } ∧
    (cw.ipc ≠ .rtn →
      exec (.latReserved3 cw) s = .next { s with run := .faulted .reservedCode } ∧
      exec (.baReserved6 cw) s = .next { s with run := .faulted .reservedCode } ∧
      exec (.baReserved7 cw) s = .next { s with run := .faulted .reservedCode } ∧
      exec (.dstReserved7 cw) s = .next { s with run := .faulted .reservedCode } ∧
      exec (.segReserved6 cw) s = .next { s with run := .faulted .reservedCode } ∧
      exec (.segReserved7 cw) s = .next { s with run := .faulted .reservedCode })

/-- R62: a word with CJC other than `NONE` and CJT of 16 or more raises StepTargetRange whatever the flags, after a reserved code
and before every other fault. -/
def Obligations.StepTargetOutOfRangeFaults : Prop :=
  ∀ (cw : ControlWord) (s : State), s.run = .fetching → cw.ipc ≠ .rtn → reservedCode cw = false →
    exec (.cjtRange cw) s = .next { s with run := .faulted .stepTargetRange } ∧
    (16 ≤ cw.cjt.toNat →
      exec (.cjcCjz cw) s = .next { s with run := .faulted .stepTargetRange } ∧
      exec (.cjcCjc cw) s = .next { s with run := .faulted .stepTargetRange } ∧
      exec (.cjcCjs cw) s = .next { s with run := .faulted .stepTargetRange })

/-! ### The tick -/

/-- R75: every reading of a valid word ends in the state the phases give, component by component. -/
def Obligations.ValidWordEndsAsItsPhasesSay : Prop :=
  ∀ (i : Instr) (cw : ControlWord) (s : State), i.controlWord? = some cw → Ready cw s →
    ∃ t, exec i s = .next t ∧
      Ends cw s (busA cw.ba cw.wid s) (busB cw.bb cw.wid s) (segValue cw.seg s) t

/-- The write set of each field (40_sequencer.md section 5): a control word of any row changes a component only where the
component's own field says so. -/
def Obligations.WriteSetOfEachField : Prop :=
  ∀ (i : Instr) (cw : ControlWord) (s t : State), i.controlWord? = some cw → exec i s = .next t →
    (cw.lat ≠ .ii → t.iw = s.iw) ∧ (cw.lat ≠ .oi → t.ow = s.ow) ∧
    (∀ r, ¬ (cw.dst = .r1 ∧ Reg.ofIndex s.index1 = some r) → ¬ (cw.dst = .r2 ∧ Reg.ofIndex s.index2 = some r) →
      ¬ (cw.dst = .sp ∧ r = .sp) → t.getReg r = s.getReg r) ∧
    (cw.dst ≠ .t0 → t.t0 = s.t0) ∧ (cw.dst ≠ .t1 → t.t1 = s.t1) ∧ (cw.dst ≠ .ie → t.ie = s.ie) ∧
    (cw.alu = .none → t.zf = s.zf ∧ t.cf = s.cf ∧ t.sf = s.sf) ∧
    (cw.ipc ≠ .ipc1 → cw.ipc ≠ .ipc2 → cw.ipc ≠ .ipc4 → cw.ipc ≠ .jmp → t.ip = s.ip) ∧
    (cw.mem ≠ .wrt → ∀ l, t.mem.byteAt l = s.mem.byteAt l) ∧
    (cw.mem = .wrt → ∀ l, l ≠ s.mem.locate (segValue cw.seg s) s.t0 →
      (cw.wid = .word → l ≠ s.mem.locate (segValue cw.seg s) (s.t0 + 1)) → s.mem.wf = true →
      t.mem.byteAt l = s.mem.byteAt l) ∧
    t.rom = s.rom ∧ t.grain = s.grain

/-- R81: `RTN` resets the step and does nothing else, whatever the other fields hold; so does every reading of an `RTN` word. -/
def Obligations.ReturnOnlyResetsTheStep : Prop :=
  (∀ (cw : ControlWord) (s : State), s.run = .fetching → exec (.ipcRtn cw) s = .next { s with stepCtr := 0 }) ∧
  ∀ (i : Instr) (cw : ControlWord) (s : State), i.controlWord? = some cw → cw.ipc = .rtn → s.run = .fetching →
    exec i s = .next { s with stepCtr := 0 }

/-- R82 to R87: the IPC rows differ in IP and the run state alone; a faulting `HLT` word faults and does not halt. -/
def Obligations.IpControlRows : Prop :=
  ∀ (cw : ControlWord) (s : State),
    (s.run = .fetching → ∀ f, validate { cw with ipc := .hlt } s = some f →
      exec (.ipcHlt cw) s = .next { s with run := .faulted f }) ∧
    (Ready { cw with ipc := .none } s → ∃ u, exec (.ipcNone cw) s = .next u ∧ u.ip = s.ip ∧ u.run = .fetching ∧
      exec (.ipcIpc1 cw) s = .next { u with ip := BitVec.ofNat 16 (s.ip.toNat + 1) } ∧
      exec (.ipcIpc2 cw) s = .next { u with ip := BitVec.ofNat 16 (s.ip.toNat + 2) } ∧
      exec (.ipcIpc4 cw) s = .next { u with ip := BitVec.ofNat 16 (s.ip.toNat + 4) } ∧
      exec (.ipcJmp cw) s = .next { u with ip := dataBus cw s } ∧
      exec (.ipcHlt cw) s = .next { u with run := .halted })

/-- R89 to R92: the CJC rows differ in the step alone, by the flag at the start of the tick; a jump row whose target is 16 or more faults
whether or not the jump would be taken. -/
def Obligations.StepJumpRows : Prop :=
  ∀ (cw : ControlWord) (s : State), Ready { cw with cjc := .none } s →
    ∃ u, exec (.cjcNone cw) s = .next u ∧ u.stepCtr = BitVec.ofNat 4 (s.stepCtr.toNat + 1) ∧
      (cw.cjt.toNat < 16 →
        exec (.cjcCjz cw) s = .next { u with stepCtr := if s.zf then BitVec.ofNat 4 cw.cjt.toNat else u.stepCtr } ∧
        exec (.cjcCjc cw) s = .next { u with stepCtr := if s.cf then BitVec.ofNat 4 cw.cjt.toNat else u.stepCtr } ∧
        exec (.cjcCjs cw) s = .next { u with stepCtr := if s.sf then BitVec.ofNat 4 cw.cjt.toNat else u.stepCtr }) ∧
      (16 ≤ cw.cjt.toNat →
        exec (.cjcCjz cw) s = .next { s with run := .faulted .stepTargetRange } ∧
        exec (.cjcCjc cw) s = .next { s with run := .faulted .stepTargetRange } ∧
        exec (.cjcCjs cw) s = .next { s with run := .faulted .stepTargetRange })

/-- R139 to R141: the LAT rows differ in IW and OW alone; `II` merges the flags at the start of the tick into bits 6:4 of a word with
bit 15 set; the reserved code faults. -/
def Obligations.LatchRows : Prop :=
  ∀ (cw : ControlWord) (s : State), Ready { cw with lat := .none } s →
    ∃ u, exec (.latNone cw) s = .next u ∧ u.iw = s.iw ∧ u.ow = s.ow ∧
      exec (.latIi cw) s = .next { u with iw := latched s (dataBus cw s) } ∧
      exec (.latOi cw) s = .next { u with ow := dataBus cw s } ∧
      exec (.latReserved3 cw) s = .next { s with run := .faulted .reservedCode }

/-! ### Bus sources and width -/

/-- R103 to R108: what each BA row puts on bus A, and the end of its word; the register of IW[3:0] by width, and the faults of its
index where no earlier check fails. -/
def Obligations.BusARows : Prop :=
  ∀ (cw : ControlWord) (s : State),
    let B := busB cw.bb cw.wid s
    let seg := segValue cw.seg s
    (Ready { cw with ba := .none } s →
      ∃ t, exec (.baNone cw) s = .next t ∧ Ends { cw with ba := .none } s 0 B seg t) ∧
    (Ready { cw with ba := .t0 } s →
      ∃ t, exec (.baT0 cw) s = .next t ∧ Ends { cw with ba := .t0 } s (low cw.wid s.t0) B seg t) ∧
    (Ready { cw with ba := .t1 } s →
      ∃ t, exec (.baT1 cw) s = .next t ∧ Ends { cw with ba := .t1 } s (low cw.wid s.t1) B seg t) ∧
    (Ready { cw with ba := .sp } s →
      ∃ t, exec (.baSp cw) s = .next t ∧ Ends { cw with ba := .sp } s (low cw.wid s.sp) B seg t) ∧
    (Ready { cw with ba := .ie } s →
      ∃ t, exec (.baIe cw) s = .next t ∧ Ends { cw with ba := .ie } s (BitVec.ofNat 16 s.ie.toNat) B seg t) ∧
    (∀ r, Reg.ofIndex s.index1 = some r → Ready { cw with ba := .r1 } s →
      ∃ t, exec (.baR1 cw) s = .next t ∧
        Ends { cw with ba := .r1 } s (BitVec.ofNat 16 (half cw.wid (s.getReg r))) B seg t) ∧
    (s.run = .fetching → cw.ipc ≠ .rtn → reservedCode { cw with ba := .r1 } = false → cw.targetOutOfRange = false →
      (8 ≤ s.iw.toNat % 16 → exec (.baR1 cw) s = .next { s with run := .faulted .badRegIndex }) ∧
      (4 ≤ s.iw.toNat % 16 → s.iw.toNat % 16 < 8 → cw.wid ≠ .word →
        exec (.baR1 cw) s = .next { s with run := .faulted .byteOfWordReg }))

/-- R109 to R116: what each BB row puts on bus B, and the end of its word; the register of OW[3:0] by width, and the faults of its
index where no earlier check fails. -/
def Obligations.BusBRows : Prop :=
  ∀ (cw : ControlWord) (s : State),
    let A := busA cw.ba cw.wid s
    let seg := segValue cw.seg s
    (Ready { cw with bb := .none } s →
      (∃ t, exec (.bbNone cw) s = .next t ∧ Ends { cw with bb := .none } s A 0 seg t) ∧
      (∃ t, exec (.bbT0 cw) s = .next t ∧ Ends { cw with bb := .t0 } s A (low cw.wid s.t0) seg t) ∧
      (∃ t, exec (.bbT1 cw) s = .next t ∧ Ends { cw with bb := .t1 } s A (low cw.wid s.t1) seg t) ∧
      (∃ t, exec (.bbK1 cw) s = .next t ∧ Ends { cw with bb := .k1 } s A 1 seg t) ∧
      (∃ t, exec (.bbK2 cw) s = .next t ∧ Ends { cw with bb := .k2 } s A 2 seg t) ∧
      (∃ t, exec (.bbK4 cw) s = .next t ∧ Ends { cw with bb := .k4 } s A 4 seg t) ∧
      (∃ t, exec (.bbK8 cw) s = .next t ∧ Ends { cw with bb := .k8 } s A 8 seg t)) ∧
    (∀ r, Reg.ofIndex s.index2 = some r → Ready { cw with bb := .r2 } s →
      ∃ t, exec (.bbR2 cw) s = .next t ∧
        Ends { cw with bb := .r2 } s A (BitVec.ofNat 16 (half cw.wid (s.getReg r))) seg t) ∧
    (s.run = .fetching → cw.ipc ≠ .rtn → reservedCode cw = false → cw.targetOutOfRange = false → usesR1 cw = false →
      (8 ≤ s.ow.toNat % 16 → exec (.bbR2 cw) s = .next { s with run := .faulted .badRegIndex }) ∧
      (4 ≤ s.ow.toNat % 16 → s.ow.toNat % 16 < 8 → cw.wid ≠ .word →
        exec (.bbR2 cw) s = .next { s with run := .faulted .byteOfWordReg }))

/-- R98 to R102: the WID rows. `WORD` runs the ALU at 16 bits and moves two bytes, the byte widths at 8 bits and one byte; the
registers of the operands, as destinations, take the whole of D, or the low byte of D in their low half, in their high half, or
zero-extended; as sources they give the whole, the low or the high half. -/
def Obligations.WidthRows : Prop :=
  ∀ (cw : ControlWord) (s : State) (wid : WidCode), Ready { cw with wid := wid } s →
    let i : Instr := match wid with
      | .word => .widWord cw
      | .byte => .widByte cw
      | .byteh => .widByteh cw
      | .bytez => .widBytez cw
    let out := alu cw.alu (busA cw.ba wid s) (busB cw.bb wid s) (if wid = .word then 16 else 8)
    let b := bus { cw with wid := wid } s (segValue cw.seg s) out.d
    (∃ t, exec i s = .next t ∧ TickEnd { cw with wid := wid } s out b.1 b.2 t) ∧
    (∀ r, Reg.ofIndex s.index1 = some r → cw.ba = .r1 → (busA cw.ba wid s).toNat = half wid (s.getReg r)) ∧
    ∀ r, Reg.ofIndex s.index2 = some r → cw.bb = .r2 → (busB cw.bb wid s).toNat = half wid (s.getReg r)

/-! ### The ALU -/

/-- R120, R121: `ADD` and `SUB`, modulo 2^w, with carry, borrow, Z and S. -/
def Obligations.ArithmeticRows : Prop :=
  ∀ (cw : ControlWord) (s : State), Ready { cw with alu := .none } s →
    let w := widthBits cw.wid
    (∃ t, exec (.aluAdd cw) s = .next t ∧
      EndsAlu { cw with alu := .add } s ((aOf cw s + bOf cw s) % 2 ^ w) (decide (2 ^ w ≤ aOf cw s + bOf cw s)) t) ∧
    (∃ t, exec (.aluSub cw) s = .next t ∧
      EndsAlu { cw with alu := .sub } s (((aOf cw s : Int) - bOf cw s) % 2 ^ w).toNat (decide (aOf cw s < bOf cw s)) t)

/-- R119, R122 to R124: `NONE` drives A | B and keeps the flags; `OR`, `XOR` and `AND` write them with C = 0. -/
def Obligations.LogicRows : Prop :=
  ∀ (cw : ControlWord) (s : State), Ready { cw with alu := .none } s →
    (∃ t, exec (.aluNone cw) s = .next t ∧ EndsAlu { cw with alu := .none } s (aOf cw s ||| bOf cw s) false t ∧
      t.zf = s.zf ∧ t.cf = s.cf ∧ t.sf = s.sf) ∧
    (∃ t, exec (.aluOr cw) s = .next t ∧ EndsAlu { cw with alu := .or } s (aOf cw s ||| bOf cw s) false t) ∧
    (∃ t, exec (.aluXor cw) s = .next t ∧ EndsAlu { cw with alu := .xor } s (aOf cw s ^^^ bOf cw s) false t) ∧
    (∃ t, exec (.aluAnd cw) s = .next t ∧ EndsAlu { cw with alu := .and } s (aOf cw s &&& bOf cw s) false t)

/-- R125, R126: the shifts by n = B[3:0], with C the last bit shifted out, 0 for n = 0 and for n over the width. -/
def Obligations.ShiftRows : Prop :=
  ∀ (cw : ControlWord) (s : State), Ready { cw with alu := .none } s →
    let w := widthBits cw.wid
    let a := aOf cw s
    let n := amount cw s
    (∃ t, exec (.aluShl cw) s = .next t ∧
      EndsAlu { cw with alu := .shl } s (if n ≤ w then a * 2 ^ n % 2 ^ w else 0)
        (decide (n ≠ 0 ∧ n ≤ w ∧ a / 2 ^ (w - n) % 2 = 1)) t) ∧
    (∃ t, exec (.aluShr cw) s = .next t ∧
      EndsAlu { cw with alu := .shr } s (if n ≤ w then a / 2 ^ n else 0)
        (decide (n ≠ 0 ∧ n ≤ w ∧ a / 2 ^ (n - 1) % 2 = 1)) t)

/-! ### Segments, memory and destinations -/

/-- R129 to R134: the SEG rows. With a memory operation the access is made in the segment the row names, and `NONE`, `INT` and an
index that is not 5, 6 or 7 fault where no earlier check fails; without one the row has no effect. -/
def Obligations.SegmentRows : Prop :=
  ∀ (cw : ControlWord) (s : State),
    let A := busA cw.ba cw.wid s
    let B := busB cw.bb cw.wid s
    (Ready { cw with seg := .cs } s → ∃ t, exec (.segCs cw) s = .next t ∧ Ends { cw with seg := .cs } s A B s.cs t) ∧
    (Ready { cw with seg := .ss } s → ∃ t, exec (.segSs cw) s = .next t ∧ Ends { cw with seg := .ss } s A B s.ss t) ∧
    (∀ r, Reg.ofIndex s.index1 = some r → Ready { cw with seg := .segi } s →
      ∃ t, exec (.segSegi cw) s = .next t ∧ Ends { cw with seg := .segi } s A B (s.getReg r) t) ∧
    (∀ r, Reg.ofIndex s.segIndex2 = some r → Ready { cw with seg := .sego } s →
      ∃ t, exec (.segSego cw) s = .next t ∧ Ends { cw with seg := .sego } s A B (s.getReg r) t) ∧
    (cw.mem = .none → Ready { cw with seg := .none } s →
      ∃ t, exec (.segNone cw) s = .next t ∧ (∀ seg, Ends { cw with seg := .none } s A B seg t) ∧
        exec (.segCs cw) s = .next t ∧ exec (.segSs cw) s = .next t ∧ exec (.segSegi cw) s = .next t ∧
        exec (.segSego cw) s = .next t ∧ exec (.segInt cw) s = .next t) ∧
    (s.run = .fetching → cw.ipc ≠ .rtn → cw.mem ≠ .none → validate { cw with mem := .none, seg := .none } s = none →
      exec (.segNone cw) s = .next { s with run := .faulted .noSegment } ∧
      exec (.segInt cw) s = .next { s with run := .faulted .unmodelled } ∧
      (isSeg (s.iw.toNat % 16) = false →
        exec (.segSegi cw) s = .next { s with run := .faulted .badSegmentIndex }) ∧
      (isSeg (s.ow.toNat / 16 % 16) = false →
        exec (.segSego cw) s = .next { s with run := .faulted .badSegmentIndex }))

/-- R135 to R138: the MEM rows. `NONE` leaves memory as it is and D the ALU's result; `RDIP` and `RDT` replace D by what is read at IP
and at T0 (flags still from the ALU); `WRT` writes D at T0 and differs from `NONE` in memory alone. The three accesses meet the segment's
faults before they happen. -/
def Obligations.MemoryRows : Prop :=
  ∀ (cw : ControlWord) (s : State),
    let out := alu cw.alu (busA cw.ba cw.wid s) (busB cw.bb cw.wid s) (widthBits cw.wid)
    let seg := segValue cw.seg s
    (Ready { cw with mem := .none } s →
      ∃ t, exec (.memNone cw) s = .next t ∧ TickEnd { cw with mem := .none } s out out.d s.mem t) ∧
    (Ready { cw with mem := .rdip } s →
      ∃ t, exec (.memRdip cw) s = .next t ∧
        TickEnd { cw with mem := .rdip } s out (s.mem.read cw.wid seg s.ip).1 (s.mem.read cw.wid seg s.ip).2 t) ∧
    (Ready { cw with mem := .rdt } s →
      ∃ t, exec (.memRdt cw) s = .next t ∧
        TickEnd { cw with mem := .rdt } s out (s.mem.read cw.wid seg s.t0).1 (s.mem.read cw.wid seg s.t0).2 t) ∧
    (Ready { cw with mem := .wrt } s →
      ∃ u, exec (.memNone cw) s = .next u ∧
        exec (.memWrt cw) s = .next { u with mem := s.mem.write cw.wid seg s.t0 out.d }) ∧
    (s.run = .fetching → cw.ipc ≠ .rtn → validate { cw with mem := .none } s = none →
      ∀ f, segmentFault { cw with mem := .rdip } s = some f →
        exec (.memRdip cw) s = .next { s with run := .faulted f } ∧
        exec (.memRdt cw) s = .next { s with run := .faulted f } ∧
        exec (.memWrt cw) s = .next { s with run := .faulted f })

/-- R142, R145 to R148: the destinations without an index, whole at every width; the reserved code faults. -/
def Obligations.DirectDestinationRows : Prop :=
  ∀ (cw : ControlWord) (s : State), Ready { cw with dst := .none } s →
    ∃ u, exec (.dstNone cw) s = .next u ∧ (∀ r, u.getReg r = s.getReg r) ∧ u.t0 = s.t0 ∧ u.t1 = s.t1 ∧ u.ie = s.ie ∧
      exec (.dstT0 cw) s = .next { u with t0 := dataBus cw s } ∧
      exec (.dstT1 cw) s = .next { u with t1 := dataBus cw s } ∧
      exec (.dstSp cw) s = .next { u with sp := dataBus cw s } ∧
      exec (.dstIe cw) s = .next { u with ie := decide ((dataBus cw s).toNat % 2 = 1) } ∧
      exec (.dstReserved7 cw) s = .next { s with run := .faulted .reservedCode }

/-- R143, R144: the destinations by index write one register by the width code, at the index of the start of the tick, and nothing
else that the word without a destination does not write; the faults of the index where no earlier check fails. -/
def Obligations.IndexedDestinationRows : Prop :=
  ∀ (cw : ControlWord) (s : State),
    (∀ r, Reg.ofIndex s.index1 = some r → Ready { cw with dst := .r1 } s →
      ∃ u v, exec (.dstNone cw) s = .next u ∧ exec (.dstR1 cw) s = .next (u.setReg r v) ∧
        v.toNat = merged cw.wid (s.getReg r) (dataBus cw s)) ∧
    (∀ r, Reg.ofIndex s.index2 = some r → Ready { cw with dst := .r2 } s →
      ∃ u v, exec (.dstNone cw) s = .next u ∧ exec (.dstR2 cw) s = .next (u.setReg r v) ∧
        v.toNat = merged cw.wid (s.getReg r) (dataBus cw s)) ∧
    (s.run = .fetching → cw.ipc ≠ .rtn → reservedCode { cw with dst := .none } = false → cw.targetOutOfRange = false →
      (8 ≤ s.iw.toNat % 16 → exec (.dstR1 cw) s = .next { s with run := .faulted .badRegIndex }) ∧
      (4 ≤ s.iw.toNat % 16 → s.iw.toNat % 16 < 8 → cw.wid ≠ .word →
        exec (.dstR1 cw) s = .next { s with run := .faulted .byteOfWordReg }) ∧
      (cw.ba ≠ .r1 → 8 ≤ s.ow.toNat % 16 → exec (.dstR2 cw) s = .next { s with run := .faulted .badRegIndex }) ∧
      (cw.ba ≠ .r1 → 4 ≤ s.ow.toNat % 16 → s.ow.toNat % 16 < 8 → cw.wid ≠ .word →
        exec (.dstR2 cw) s = .next { s with run := .faulted .byteOfWordReg }))

/-! ### The memory interface -/

/-- R36 and R38: a read of RAM-like bytes changes nothing; a word has its more significant byte at the lower offset, a byte is
zero-extended. -/
def Obligations.ReadIsBigEndian : Prop :=
  ∀ (m : Memory) (seg off : Word), ram m seg off →
    (ram m seg (off + 1) →
      m.read .word seg off =
        (BitVec.ofNat 16 ((m.byteAt (m.locate seg off)).toNat * 256 + (m.byteAt (m.locate seg (off + 1))).toNat), m)) ∧
    ∀ wid, wid ≠ WidCode.word →
      m.read wid seg off = (BitVec.ofNat 16 (m.byteAt (m.locate seg off)).toNat, m)

/-- R37: a write then holds the value's bytes, the high byte first and the low byte second, so that where PHYS decodes both offsets to
one location the low byte stays; every other location reads as before (memory in canonical form, the locations RAM-like). -/
def Obligations.WriteStoresHighByteFirst : Prop :=
  ∀ (m : Memory) (seg off v : Word) (l : Nat), m.wf = true → ram m seg off →
    (ram m seg (off + 1) →
      ((m.write .word seg off v).byteAt l).toNat =
        if l = m.locate seg (off + 1) then v.toNat % 256
        else if l = m.locate seg off then v.toNat / 256 else (m.byteAt l).toNat) ∧
    ∀ wid, wid ≠ WidCode.word →
      ((m.write wid seg off v).byteAt l).toNat = if l = m.locate seg off then v.toNat % 256 else (m.byteAt l).toNat

/-- R39: a two-byte access at offset 0xFFFF uses offsets 0xFFFF and 0x0000 of the same segment. -/
def Obligations.WordAccessWrapsInItsSegment : Prop :=
  ∀ (m : Memory) (seg v : Word),
    m.read .word seg 0xFFFF =
      (wordOfBytes (m.readByte seg 0xFFFF).1 ((m.readByte seg 0xFFFF).2.readByte seg 0).1,
        ((m.readByte seg 0xFFFF).2.readByte seg 0).2) ∧
    m.write .word seg 0xFFFF v = (m.writeByte seg 0xFFFF (highByte v)).writeByte seg 0 (lowByte v)

/-- A word written to two RAM-like bytes that PHYS keeps apart is read back by a word read at its offset, and its high and low byte by
`BYTE` reads at its offset and the next (20_memory.md R38 and R45). Byte writes are in `WriteStoresHighByteFirst`. -/
def Obligations.ReadAfterWrite : Prop :=
  ∀ (m : Memory) (seg off v : Word), m.wf = true → ram m seg off → ram m seg (off + 1) →
    m.locate seg off ≠ m.locate seg (off + 1) →
    ((m.write .word seg off v).read .word seg off).1 = v ∧
      ((m.write .word seg off v).read .byte seg off).1.toNat = v.toNat / 256 ∧
      ((m.write .word seg off v).read .byte seg (off + 1)).1.toNat = v.toNat % 256

/-- The model's own reading of 20_memory.md R42 (log entry 3): a window's answer is the free value of its location and history, for
every value it may have; the access is recorded, so the next answer is another free value; no byte of memory changes. -/
def Obligations.WindowAnswersAreFree : Prop :=
  ∀ (m : Memory) (seg off : Word) (b : Byte), ¬ ram m seg off →
    (m.readByte seg off).1 = Config.windowByte (m.locate seg off) m.log ∧
      (m.readByte seg off).2.log = .read (m.locate seg off) :: m.log ∧
      (m.writeByte seg off b).log = .write (m.locate seg off) b :: m.log ∧
      ∀ l, (m.readByte seg off).2.byteAt l = m.byteAt l ∧ (m.writeByte seg off b).byteAt l = m.byteAt l

/-- 70_reset_and_hazards.md section 4 (R205), on what the model records: a tick makes at most two byte accesses to windows. -/
def Obligations.TickMakesAtMostTwoAccesses : Prop :=
  ∀ (s t : State), engineTick s = .next t →
    ∃ new : List BusAccess, new.length ≤ 2 ∧ t.mem.log = new ++ s.mem.log

/-- R179: IE enables nothing. A word that does not put IE on bus A does the same whatever IE holds. -/
def Obligations.InterruptEnableHasNoEffect : Prop :=
  ∀ (i : Instr) (cw : ControlWord) (s : State) (b : Bool), i.controlWord? = some cw → cw.ba ≠ .ie →
    ∃ t e, exec i s = .next t ∧ exec i { s with ie := b } = .next { t with ie := e }

/-! ### Macro-instructions of the example ROM -/

/-- R153, R154, R169: `NOP` passes its word; `HLT` and ILLEGAL halt at step 2; their encodings and their blocks, ILLEGAL's being every
block without a declared procedure. -/
def Obligations.NopHltIllegal : Prop :=
  ∀ (x : Nibble) (w : Word) (s : State), s.run = .fetching →
    Declared (.nop x) x.toNat [] 0x0000 [0x0048000A, 0x00000006] ∧
    Declared (.hlt x) (0x0400 + x.toNat) [] 0x0400 [0x0048000A, 0x00000005] ∧
    (isDeclared w = false →
      Declared (.illegal w) w.toNat [] (mergeFlags s w &&& 0xFFF0) [0x0048000A, 0x00000005]) ∧
    exec (.nop x) s = .next { s with iw := BitVec.ofNat 16 x.toNat, ip := s.ip + 2, stepCtr := 0 } ∧
    exec (.hlt x) s = .next
      { s with iw := BitVec.ofNat 16 (0x0400 + x.toNat), ip := s.ip + 2, stepCtr := 2, run := .halted } ∧
    exec (.illegal w) s = .next { s with iw := latched s w, ip := s.ip + 2, stepCtr := 2, run := .halted }

/-- R155, R156: the two immediate moves, with their encodings and blocks and the faults of their index at step 1. -/
def Obligations.MoveImmediate : Prop :=
  ∀ (r : Nibble) (imm : Word) (imm8 : Byte) (s : State), s.run = .fetching →
    Declared (.movRegImm16 r imm) (0x08B0 + r.toNat) (bytes2 imm.toNat) 0x08B0 [0x0048000A, 0x00484002, 0x00000006] ∧
    Declared (.movRegImm8 r imm8) (0x08A0 + r.toNat) [imm8] 0x08A0 [0x0048000A, 0x004A4001, 0x00000006] ∧
    (∀ d, Reg.ofIndex r = some d →
      exec (.movRegImm16 r imm) s = .next
        ({ s with iw := BitVec.ofNat 16 (0x08B0 + r.toNat), ip := s.ip + 4, stepCtr := 0 }.setReg d imm)) ∧
    (8 ≤ r.toNat →
      exec (.movRegImm16 r imm) s = .next
        { s with iw := BitVec.ofNat 16 (0x08B0 + r.toNat), ip := s.ip + 2, stepCtr := 1, run := .faulted .badRegIndex }) ∧
    (∀ d, Reg.ofIndex r = some d → r.toNat < 4 →
      exec (.movRegImm8 r imm8) s = .next
        ({ s with iw := BitVec.ofNat 16 (0x08A0 + r.toNat), ip := s.ip + 3, stepCtr := 0 }.setReg d
          (BitVec.ofNat 16 ((s.getReg d).toNat / 256 * 256 + imm8.toNat)))) ∧
    (4 ≤ r.toNat →
      exec (.movRegImm8 r imm8) s = .next
        { s with
          iw := BitVec.ofNat 16 (0x08A0 + r.toNat), ip := s.ip + 2, stepCtr := 1,
          run := .faulted (if r.toNat < 8 then .byteOfWordReg else .badRegIndex) })

/-- R157: the register move, with its encoding and block and its fault at step 2. -/
def Obligations.MoveRegister : Prop :=
  ∀ (r : Nibble) (operand : Byte) (s : State), s.run = .fetching →
    let iw := BitVec.ofNat 16 (0x0890 + r.toNat)
    let ow := BitVec.ofNat 16 operand.toNat
    Declared (.movRegReg r operand) (0x0890 + r.toNat) [operand] 0x0890
      [0x0048000A, 0x004A0011, 0x00004100, 0x00000006] ∧
    (∀ d src, Reg.ofIndex r = some d → Reg.ofIndex (BitVec.ofNat 4 (operand.toNat % 16)) = some src →
      exec (.movRegReg r operand) s = .next
        ({ s with iw := iw, ow := ow, ip := s.ip + 3, stepCtr := 0 }.setReg d (s.getReg src))) ∧
    (8 ≤ r.toNat ∨ 8 ≤ operand.toNat % 16 →
      exec (.movRegReg r operand) s = .next
        { s with iw := iw, ow := ow, ip := s.ip + 3, stepCtr := 2, run := .faulted .badRegIndex })

/-- R158: the store, with its encoding and block and its fault at step 3; the bytes stored are those of one two-byte write at [seg:addr]. -/
def Obligations.MoveToMemory : Prop :=
  ∀ (seg : Nibble) (addr value : Word) (s : State), s.run = .fetching →
    let s' := { s with iw := BitVec.ofNat 16 (0x0A30 + seg.toNat), t0 := addr, t1 := value, ip := s.ip + 6 }
    Declared (.movMemImm seg addr value) (0x0A30 + seg.toNat) (bytes2 addr.toNat ++ bytes2 value.toNat) 0x0A30
      [0x0048000A, 0x0048C002, 0x00490002, 0x00D80060, 0x00000006] ∧
    (∀ r, Reg.ofIndex seg = some r → isSeg seg.toNat = true →
      exec (.movMemImm seg addr value) s = .next
        { s' with stepCtr := 0, mem := s.mem.write .word (s.getReg r) addr value }) ∧
    (isSeg seg.toNat = false →
      exec (.movMemImm seg addr value) s = .next { s' with stepCtr := 3, run := .faulted .badSegmentIndex })

/-- R159, R160: the loads through [seg:r'], a word or a zero-extended byte into the whole register, with their encodings and blocks and
their faults: the base index at step 2, then at step 3 the destination's index before the segment's. -/
def Obligations.MoveFromMemory : Prop :=
  ∀ (wid : WidCode) (r : Nibble) (operand : Byte) (s : State), s.run = .fetching →
    (wid = WidCode.word ∨ wid = WidCode.bytez) →
    let i : Instr := if wid = .word then .movRegMemw r operand else .movRegMemb r operand
    let base := BitVec.ofNat 4 (operand.toNat % 16)
    let seg := BitVec.ofNat 4 (operand.toNat / 16)
    let s2 := { s with
      iw := BitVec.ofNat 16 ((if wid = WidCode.word then 0x08D0 else 0x08F0) + r.toNat)
      ow := BitVec.ofNat 16 operand.toNat
      ip := s.ip + 3 }
    (if wid = .word then
      Declared i (0x08D0 + r.toNat) [operand] 0x08D0 [0x0048000A, 0x004A0011, 0x0000C100, 0x00A04000, 0x00000006]
    else
      Declared i (0x08F0 + r.toNat) [operand] 0x08F0 [0x0048000A, 0x004A0011, 0x0000C100, 0x00A64000, 0x00000006]) ∧
    (8 ≤ base.toNat → exec i s = .next { s2 with stepCtr := 2, run := .faulted .badRegIndex }) ∧
    ∀ b, Reg.ofIndex base = some b →
      let s3 := { s2 with t0 := s.getReg b }
      (8 ≤ r.toNat → exec i s = .next { s3 with stepCtr := 3, run := .faulted .badRegIndex }) ∧
      (4 ≤ r.toNat → r.toNat < 8 → wid = .bytez →
        exec i s = .next { s3 with stepCtr := 3, run := .faulted .byteOfWordReg }) ∧
      ∀ d, Reg.ofIndex r = some d → (wid = .bytez → r.toNat < 4) →
        (isSeg seg.toNat = false → exec i s = .next { s3 with stepCtr := 3, run := .faulted .badSegmentIndex }) ∧
        ∀ sg, Reg.ofIndex seg = some sg → isSeg seg.toNat = true →
          exec i s = .next ({ s3 with
            stepCtr := 0
            mem := (s.mem.read wid (s.getReg sg) (s.getReg b)).2 }.setReg d
              (s.mem.read wid (s.getReg sg) (s.getReg b)).1)

/-- R161, R163: `ADD r, r'` and `SUB r, r'`, with their encodings and blocks and their fault at step 2. -/
def Obligations.AddSubRegister : Prop :=
  ∀ (r : Nibble) (operand : Byte) (s : State), s.run = .fetching →
    let s2 := { s with ow := BitVec.ofNat 16 operand.toNat, ip := s.ip + 3 }
    let add := { s2 with iw := BitVec.ofNat 16 (0x0C90 + r.toNat) }
    let sub := { s2 with iw := BitVec.ofNat 16 (0x1090 + r.toNat) }
    Declared (.addRegReg r operand) (0x0C90 + r.toNat) [operand] 0x0C90
      [0x0048000A, 0x004A0011, 0x00004920, 0x00000006] ∧
    Declared (.subRegReg r operand) (0x1090 + r.toNat) [operand] 0x1090
      [0x0048000A, 0x004A0011, 0x00005120, 0x00000006] ∧
    (∀ d src, Reg.ofIndex r = some d → Reg.ofIndex (BitVec.ofNat 4 (operand.toNat % 16)) = some src →
      let a := (s.getReg d).toNat
      let b := (s.getReg src).toNat
      exec (.addRegReg r operand) s = .next
        (flags { add with stepCtr := 0 } ((a + b) % 65536) (decide (65536 ≤ a + b)) |>.setReg d (BitVec.ofNat 16 (a + b))) ∧
      exec (.subRegReg r operand) s = .next
        (flags { sub with stepCtr := 0 } ((a + 65536 - b) % 65536) (decide (a < b)) |>.setReg d
          (BitVec.ofNat 16 (a + 65536 - b)))) ∧
    (8 ≤ r.toNat ∨ 8 ≤ operand.toNat % 16 →
      exec (.addRegReg r operand) s = .next { add with stepCtr := 2, run := .faulted .badRegIndex } ∧
      exec (.subRegReg r operand) s = .next { sub with stepCtr := 2, run := .faulted .badRegIndex })

/-- R162, R164: `ADD r, imm16` and `SUB r, imm16`, with their encodings and blocks and their fault at step 2. -/
def Obligations.AddSubImmediate : Prop :=
  ∀ (r : Nibble) (imm : Word) (s : State), s.run = .fetching →
    let s2 := { s with t1 := imm, ip := s.ip + 4 }
    let add := { s2 with iw := BitVec.ofNat 16 (0x0CB0 + r.toNat) }
    let sub := { s2 with iw := BitVec.ofNat 16 (0x10B0 + r.toNat) }
    Declared (.addRegImm16 r imm) (0x0CB0 + r.toNat) (bytes2 imm.toNat) 0x0CB0
      [0x0048000A, 0x00490002, 0x00004B20, 0x00000006] ∧
    Declared (.subRegImm16 r imm) (0x10B0 + r.toNat) (bytes2 imm.toNat) 0x10B0
      [0x0048000A, 0x00490002, 0x00005320, 0x00000006] ∧
    (∀ d, Reg.ofIndex r = some d →
      let a := (s.getReg d).toNat
      let b := imm.toNat
      exec (.addRegImm16 r imm) s = .next
        (flags { add with stepCtr := 0 } ((a + b) % 65536) (decide (65536 ≤ a + b)) |>.setReg d (BitVec.ofNat 16 (a + b))) ∧
      exec (.subRegImm16 r imm) s = .next
        (flags { sub with stepCtr := 0 } ((a + 65536 - b) % 65536) (decide (a < b)) |>.setReg d
          (BitVec.ofNat 16 (a + 65536 - b)))) ∧
    (8 ≤ r.toNat →
      exec (.addRegImm16 r imm) s = .next { add with stepCtr := 2, run := .faulted .badRegIndex } ∧
      exec (.subRegImm16 r imm) s = .next { sub with stepCtr := 2, run := .faulted .badRegIndex })

/-- R165: `SHL r, imm8`: only the low 4 bits of the count act; C is the last bit out, 0 for a count of 0; with its encoding
and block and its fault at step 2. -/
def Obligations.ShiftLeftImmediate : Prop :=
  ∀ (r : Nibble) (imm : Byte) (s : State), s.run = .fetching →
    let s2 := { s with
      iw := BitVec.ofNat 16 (0x20A0 + r.toNat)
      t1 := BitVec.ofNat 16 imm.toNat
      ip := s.ip + 3 }
    Declared (.shlRegImm8 r imm) (0x20A0 + r.toNat) [imm] 0x20A0 [0x0048000A, 0x004B0001, 0x00007320, 0x00000006] ∧
    (∀ d, Reg.ofIndex r = some d →
      let a := (s.getReg d).toNat
      let n := imm.toNat % 16
      exec (.shlRegImm8 r imm) s = .next
        (flags { s2 with stepCtr := 0 } (a * 2 ^ n % 65536) (decide (n ≠ 0 ∧ a / 2 ^ (16 - n) % 2 = 1)) |>.setReg d
          (BitVec.ofNat 16 (a * 2 ^ n)))) ∧
    (8 ≤ r.toNat →
      exec (.shlRegImm8 r imm) s = .next { s2 with stepCtr := 2, run := .faulted .badRegIndex })

/-- R166 to R168: the jumps, with their encodings and the blocks of the eight flag combinations. The Z tested is the one at the FETCH,
which the latched word shows. -/
def Obligations.Jumps : Prop :=
  ∀ (slot : BitVec 3) (x : Nibble) (target : Word) (s : State), s.run = .fetching →
    let f := s.sf.toNat * 64 + s.cf.toNat * 32 + s.zf.toNat * 16 + x.toNat
    let jump : List ControlBits := [0x0048000A, 0x00480004, 0x00000006]
    let skip : List ControlBits := [0x0048000A, 0x00000002, 0x00000006]
    (∀ k, k < 8 →
      Declared (.jmp slot x target) (0x9580 + slot.toNat * 16 + x.toNat) (bytes2 target.toNat)
        (BitVec.ofNat 16 (0x9580 + k * 16)) jump ∧
      Declared (.jz slot x target) (0x9980 + slot.toNat * 16 + x.toNat) (bytes2 target.toNat)
        (BitVec.ofNat 16 (0x9980 + k * 16)) (if k % 2 = 1 then jump else skip) ∧
      Declared (.jnz slot x target) (0x9D80 + slot.toNat * 16 + x.toNat) (bytes2 target.toNat)
        (BitVec.ofNat 16 (0x9D80 + k * 16)) (if k % 2 = 1 then skip else jump)) ∧
    exec (.jmp slot x target) s = .next { s with iw := BitVec.ofNat 16 (0x9580 + f), ip := target, stepCtr := 0 } ∧
    exec (.jz slot x target) s = .next
      { s with iw := BitVec.ofNat 16 (0x9980 + f), ip := if s.zf then target else s.ip + 4, stepCtr := 0 } ∧
    exec (.jnz slot x target) s = .next
      { s with iw := BitVec.ofNat 16 (0x9D80 + f), ip := if s.zf then s.ip + 4 else target, stepCtr := 0 }

/-! ### The microcode behind the macro-instructions -/

/-- The example ROM (R150, R170): step 0 of every block is FETCH and no word is malformed. -/
def Obligations.ExampleRomIsWellFormed : Prop :=
  ∀ a : Word, (a.toNat % 16 = 0 → exampleRom a = cwFetch) ∧
    reservedCode (decodeControl (exampleRom a)) = false ∧ (decodeControl (exampleRom a)).targetOutOfRange = false

/-- Refinement (R97, R149, R204): the net effect of a macro-instruction is what the ticks of its block do, in as many ticks as R204
gives (a halted or faulted engine idles through the rest). -/
def Obligations.MacroInstructionIsItsTicks : Prop :=
  ∀ (s : State) (i : Instr), macroAt s = some i → exec i s = ticks (tickCount i) s

/-- Refinement of the step: a step at the instruction grain is a run of one to five ticks, for every ROM, memory and state. -/
def Obligations.InstructionStepIsTicks : Prop :=
  ∀ s : State, s.grain = .instruction → ∃ n, 1 ≤ n ∧ n ≤ 5 ∧ step s = ticks n s
end

