-- ==== Sys2Proof/Laws/Encoding.lean ====
section
/-! SUPPORT. Small lemmas of the decoder and encoder: the field codes are one-to-one, and each field of an encoded control word
reads back. -/

namespace Sys2Proof

@[simp] theorem IpcCode.ofCode_code (c : IpcCode) : IpcCode.ofCode c.code = c := by
  cases c <;> rfl

@[simp] theorem IpcCode.code_ofCode (b : BitVec 3) : (IpcCode.ofCode b).code = b := by
  revert b
  decide

@[simp] theorem LatCode.ofCode_code (c : LatCode) : LatCode.ofCode c.code = c := by
  cases c <;> rfl

@[simp] theorem LatCode.code_ofCode (b : BitVec 2) : (LatCode.ofCode b).code = b := by
  revert b
  decide

@[simp] theorem BaCode.ofCode_code (c : BaCode) : BaCode.ofCode c.code = c := by
  cases c <;> rfl

@[simp] theorem BaCode.code_ofCode (b : BitVec 3) : (BaCode.ofCode b).code = b := by
  revert b
  decide

@[simp] theorem BbCode.ofCode_code (c : BbCode) : BbCode.ofCode c.code = c := by
  cases c <;> rfl

@[simp] theorem BbCode.code_ofCode (b : BitVec 3) : (BbCode.ofCode b).code = b := by
  revert b
  decide

@[simp] theorem AluCode.ofCode_code (c : AluCode) : AluCode.ofCode c.code = c := by
  cases c <;> rfl

@[simp] theorem AluCode.code_ofCode (b : BitVec 3) : (AluCode.ofCode b).code = b := by
  revert b
  decide

@[simp] theorem DstCode.ofCode_code (c : DstCode) : DstCode.ofCode c.code = c := by
  cases c <;> rfl

@[simp] theorem DstCode.code_ofCode (b : BitVec 3) : (DstCode.ofCode b).code = b := by
  revert b
  decide

@[simp] theorem WidCode.ofCode_code (c : WidCode) : WidCode.ofCode c.code = c := by
  cases c <;> rfl

@[simp] theorem WidCode.code_ofCode (b : BitVec 2) : (WidCode.ofCode b).code = b := by
  revert b
  decide

@[simp] theorem SegCode.ofCode_code (c : SegCode) : SegCode.ofCode c.code = c := by
  cases c <;> rfl

@[simp] theorem SegCode.code_ofCode (b : BitVec 3) : (SegCode.ofCode b).code = b := by
  revert b
  decide

@[simp] theorem MemCode.ofCode_code (c : MemCode) : MemCode.ofCode c.code = c := by
  cases c <;> rfl

@[simp] theorem MemCode.code_ofCode (b : BitVec 2) : (MemCode.ofCode b).code = b := by
  revert b
  decide

@[simp] theorem CjcCode.ofCode_code (c : CjcCode) : CjcCode.ofCode c.code = c := by
  cases c <;> rfl

@[simp] theorem CjcCode.code_ofCode (b : BitVec 2) : (CjcCode.ofCode b).code = b := by
  revert b
  decide

theorem encodeControl_ipc (cw : ControlWord) : (encodeControl cw).extractLsb' 0 3 = cw.ipc.code := by
  unfold encodeControl
  ext i hi
  interval_cases i <;> simp

theorem encodeControl_lat (cw : ControlWord) : (encodeControl cw).extractLsb' 3 2 = cw.lat.code := by
  unfold encodeControl
  ext i hi
  interval_cases i <;> simp [BitVec.getLsbD_of_ge]

theorem encodeControl_ba (cw : ControlWord) : (encodeControl cw).extractLsb' 5 3 = cw.ba.code := by
  unfold encodeControl
  ext i hi
  interval_cases i <;> simp [BitVec.getLsbD_of_ge]

theorem encodeControl_bb (cw : ControlWord) : (encodeControl cw).extractLsb' 8 3 = cw.bb.code := by
  unfold encodeControl
  ext i hi
  interval_cases i <;> simp [BitVec.getLsbD_of_ge]

theorem encodeControl_alu (cw : ControlWord) : (encodeControl cw).extractLsb' 11 3 = cw.alu.code := by
  unfold encodeControl
  ext i hi
  interval_cases i <;> simp [BitVec.getLsbD_of_ge]

theorem encodeControl_dst (cw : ControlWord) : (encodeControl cw).extractLsb' 14 3 = cw.dst.code := by
  unfold encodeControl
  ext i hi
  interval_cases i <;> simp [BitVec.getLsbD_of_ge]

theorem encodeControl_wid (cw : ControlWord) : (encodeControl cw).extractLsb' 17 2 = cw.wid.code := by
  unfold encodeControl
  ext i hi
  interval_cases i <;> simp [BitVec.getLsbD_of_ge]

theorem encodeControl_seg (cw : ControlWord) : (encodeControl cw).extractLsb' 19 3 = cw.seg.code := by
  unfold encodeControl
  ext i hi
  interval_cases i <;> simp [BitVec.getLsbD_of_ge]

theorem encodeControl_mem (cw : ControlWord) : (encodeControl cw).extractLsb' 22 2 = cw.mem.code := by
  unfold encodeControl
  ext i hi
  interval_cases i <;> simp [BitVec.getLsbD_of_ge]

theorem encodeControl_cjc (cw : ControlWord) : (encodeControl cw).extractLsb' 24 2 = cw.cjc.code := by
  unfold encodeControl
  ext i hi
  interval_cases i <;> simp [BitVec.getLsbD_of_ge]

theorem encodeControl_cjt (cw : ControlWord) : (encodeControl cw).extractLsb' 26 6 = cw.cjt := by
  unfold encodeControl
  ext i hi
  interval_cases i <;> simp

@[simp] theorem wordOfBytes_high_low (w : Word) : wordOfBytes (highByte w) (lowByte w) = w := by
  unfold wordOfBytes highByte lowByte
  ext i hi
  interval_cases i <;> simp

@[simp] theorem highByte_wordOfBytes (h l : Byte) : highByte (wordOfBytes h l) = h := by
  unfold wordOfBytes highByte
  ext i hi
  interval_cases i <;> simp [BitVec.getLsbD_of_ge]

@[simp] theorem lowByte_wordOfBytes (h l : Byte) : lowByte (wordOfBytes h l) = l := by
  unfold wordOfBytes lowByte
  ext i hi
  interval_cases i <;> simp

/-- The forced word of the row `CJT>=16 with CJC!=NONE` is out of range. -/
theorem forceOutOfRange_outOfRange (cw : ControlWord) : cw.forceOutOfRange.targetOutOfRange = true := by
  have high : ∀ t : BitVec 6, 16 ≤ (t ||| 16).toNat := by decide
  unfold ControlWord.forceOutOfRange
  split
  · assumption
  · have := high cw.cjt
    rcases h : cw.cjc <;> simpa [ControlWord.targetOutOfRange] using this

end Sys2Proof
end

