-- ==== Sys2Proof/Laws/Sparse.lean ====
section
/-! SUPPORT. The laws of a sparse map: reading after writing, and the canonical form is kept. -/

namespace Sys2Proof.Machine

variable {β : Type} [DecidableEq β] {dflt : Nat → β}

omit [DecidableEq β] in
theorem sparseGet_cons (k : Nat) (v : β) (l : List (Nat × β)) (a : Nat) :
    sparseGet dflt ((k, v) :: l) a = if k = a then v else sparseGet dflt l a := rfl

/-- Below the lowest listed address every address reads as the default. -/
theorem sparseGet_below {lo : Nat} {l : List (Nat × β)} (h : sparseWfFrom dflt lo l = true) {a : Nat} (ha : a < lo) :
    sparseGet dflt l a = dflt a := by
  induction l generalizing lo with
  | nil => rfl
  | cons e t ih =>
    obtain ⟨k, v⟩ := e
    simp only [sparseWfFrom, Bool.and_eq_true, decide_eq_true_eq] at h
    rw [sparseGet_cons, if_neg (by omega)]
    exact ih h.2 (by omega)

theorem sparseWfFrom_mono {lo hi : Nat} {l : List (Nat × β)} (h : sparseWfFrom dflt hi l = true) (le : lo ≤ hi) :
    sparseWfFrom dflt lo l = true := by
  cases l with
  | nil => rfl
  | cons e t =>
    simp only [sparseWfFrom, Bool.and_eq_true, decide_eq_true_eq] at h ⊢
    exact ⟨⟨by omega, h.1.2⟩, h.2⟩

theorem sparseCons_wf {lo a : Nat} {v : β} {l : List (Nat × β)} (h : sparseWfFrom dflt (a + 1) l = true) (le : lo ≤ a) :
    sparseWfFrom dflt lo (sparseCons dflt a v l) = true := by
  unfold sparseCons
  split
  · exact sparseWfFrom_mono h (by omega)
  · simp_all [sparseWfFrom]

theorem sparseCons_get {a b : Nat} {v : β} {l : List (Nat × β)} (h : sparseWfFrom dflt (a + 1) l = true) :
    sparseGet dflt (sparseCons dflt a v l) b = if a = b then v else sparseGet dflt l b := by
  unfold sparseCons
  split
  · rename_i hv
    split
    · subst b; rw [sparseGet_below h (by omega), hv]
    · rfl
  · rfl

/-- A write keeps the canonical form. -/
theorem sparseSet_wfFrom {lo a : Nat} {v : β} {l : List (Nat × β)} (h : sparseWfFrom dflt lo l = true) (le : lo ≤ a) :
    sparseWfFrom dflt lo (sparseSet dflt l a v) = true := by
  induction l generalizing lo with
  | nil => exact sparseCons_wf rfl le
  | cons e t ih =>
    obtain ⟨k, u⟩ := e
    have hk := h
    simp only [sparseWfFrom, Bool.and_eq_true, decide_eq_true_eq] at h
    unfold sparseSet
    split
    · refine sparseCons_wf ?_ le
      simp only [sparseWfFrom, Bool.and_eq_true, decide_eq_true_eq]
      exact ⟨⟨by omega, h.1.2⟩, h.2⟩
    · split
      · subst a; exact sparseCons_wf h.2 le
      · simp only [sparseWfFrom, Bool.and_eq_true, decide_eq_true_eq]
        exact ⟨h.1, ih h.2 (by omega)⟩

/-- A write keeps the canonical form. -/
theorem sparseSet_wf {a : Nat} {v : β} {l : List (Nat × β)} (h : sparseWf dflt l = true) :
    sparseWf dflt (sparseSet dflt l a v) = true :=
  sparseSet_wfFrom h (Nat.zero_le a)

/-- Reading after a write: the written address gives the value, every other address what it gave. -/
theorem sparseSet_getFrom {lo a b : Nat} {v : β} {l : List (Nat × β)} (h : sparseWfFrom dflt lo l = true) :
    sparseGet dflt (sparseSet dflt l a v) b = if a = b then v else sparseGet dflt l b := by
  induction l generalizing lo with
  | nil => exact sparseCons_get rfl
  | cons e t ih =>
    obtain ⟨k, u⟩ := e
    simp only [sparseWfFrom, Bool.and_eq_true, decide_eq_true_eq] at h
    unfold sparseSet
    split
    · refine sparseCons_get ?_
      simp only [sparseWfFrom, Bool.and_eq_true, decide_eq_true_eq]
      exact ⟨⟨by omega, h.1.2⟩, h.2⟩
    · split
      · subst a
        rw [sparseCons_get h.2, sparseGet_cons]
        split <;> rfl
      · rw [sparseGet_cons, sparseGet_cons, ih h.2]
        split
        · rw [if_neg (by omega)]
        · rfl

/-- Reading after a write. -/
theorem sparseSet_get {a b : Nat} {v : β} {l : List (Nat × β)} (h : sparseWf dflt l = true) :
    sparseGet dflt (sparseSet dflt l a v) b = if a = b then v else sparseGet dflt l b :=
  sparseSet_getFrom h

/-- A write at an address keeps a property of all listed addresses that the address has. -/
theorem sparseSet_all {p : Nat → Bool} {a : Nat} {v : β} {l : List (Nat × β)} (h : l.all (fun e => p e.1) = true)
    (ha : p a = true) : (sparseSet dflt l a v).all (fun e => p e.1) = true := by
  have cons : ∀ t : List (Nat × β), t.all (fun e => p e.1) = true → (sparseCons dflt a v t).all (fun e => p e.1) = true := by
    intro t ht
    unfold sparseCons
    split
    · exact ht
    · rw [List.all_cons, ha, ht]; rfl
  induction l with
  | nil => exact cons [] rfl
  | cons e t ih =>
    obtain ⟨k, u⟩ := e
    have hh := h
    rw [List.all_cons, Bool.and_eq_true] at hh
    have ht := hh.2
    unfold sparseSet
    split
    · exact cons _ h
    · split
      · exact cons _ ht
      · rw [List.all_cons, Bool.and_eq_true]
        exact ⟨hh.1, ih ht⟩

end Sys2Proof.Machine
end

