-- ==== Sys2Proof/Laws/State.lean ====
section
/-! SUPPORT. One lemma per field per update of State, so that no later proof unfolds a record update: what each named update writes
and, field by field, what it leaves. -/

namespace Sys2Proof.Machine

/-! ### Fault entry -/

@[simp] theorem raise_run (f : FaultReason) (s : State) : (raise f s).run = .faulted f := rfl
@[simp] theorem raise_r0 (f : FaultReason) (s : State) : (raise f s).r0 = s.r0 := rfl
@[simp] theorem raise_r1 (f : FaultReason) (s : State) : (raise f s).r1 = s.r1 := rfl
@[simp] theorem raise_r2 (f : FaultReason) (s : State) : (raise f s).r2 = s.r2 := rfl
@[simp] theorem raise_r3 (f : FaultReason) (s : State) : (raise f s).r3 = s.r3 := rfl
@[simp] theorem raise_sp (f : FaultReason) (s : State) : (raise f s).sp = s.sp := rfl
@[simp] theorem raise_ss (f : FaultReason) (s : State) : (raise f s).ss = s.ss := rfl
@[simp] theorem raise_cs (f : FaultReason) (s : State) : (raise f s).cs = s.cs := rfl
@[simp] theorem raise_ds (f : FaultReason) (s : State) : (raise f s).ds = s.ds := rfl
@[simp] theorem raise_ip (f : FaultReason) (s : State) : (raise f s).ip = s.ip := rfl
@[simp] theorem raise_iw (f : FaultReason) (s : State) : (raise f s).iw = s.iw := rfl
@[simp] theorem raise_ow (f : FaultReason) (s : State) : (raise f s).ow = s.ow := rfl
@[simp] theorem raise_t0 (f : FaultReason) (s : State) : (raise f s).t0 = s.t0 := rfl
@[simp] theorem raise_t1 (f : FaultReason) (s : State) : (raise f s).t1 = s.t1 := rfl
@[simp] theorem raise_zf (f : FaultReason) (s : State) : (raise f s).zf = s.zf := rfl
@[simp] theorem raise_cf (f : FaultReason) (s : State) : (raise f s).cf = s.cf := rfl
@[simp] theorem raise_sf (f : FaultReason) (s : State) : (raise f s).sf = s.sf := rfl
@[simp] theorem raise_ie (f : FaultReason) (s : State) : (raise f s).ie = s.ie := rfl
@[simp] theorem raise_stepCtr (f : FaultReason) (s : State) : (raise f s).stepCtr = s.stepCtr := rfl
@[simp] theorem raise_rom (f : FaultReason) (s : State) : (raise f s).rom = s.rom := rfl
@[simp] theorem raise_mem (f : FaultReason) (s : State) : (raise f s).mem = s.mem := rfl
@[simp] theorem raise_grain (f : FaultReason) (s : State) : (raise f s).grain = s.grain := rfl

/-! ### Registers -/

theorem setReg_getReg (s : State) (r q : Reg) (v : Word) : (s.setReg r v).getReg q = if q = r then v else s.getReg q := by
  cases r <;> cases q <;> rfl

@[simp] theorem setReg_getReg_same (s : State) (r : Reg) (v : Word) : (s.setReg r v).getReg r = v := by
  cases r <;> rfl

@[simp] theorem setReg_ip (s : State) (r : Reg) (v : Word) : (s.setReg r v).ip = s.ip := by cases r <;> rfl
@[simp] theorem setReg_iw (s : State) (r : Reg) (v : Word) : (s.setReg r v).iw = s.iw := by cases r <;> rfl
@[simp] theorem setReg_ow (s : State) (r : Reg) (v : Word) : (s.setReg r v).ow = s.ow := by cases r <;> rfl
@[simp] theorem setReg_t0 (s : State) (r : Reg) (v : Word) : (s.setReg r v).t0 = s.t0 := by cases r <;> rfl
@[simp] theorem setReg_t1 (s : State) (r : Reg) (v : Word) : (s.setReg r v).t1 = s.t1 := by cases r <;> rfl
@[simp] theorem setReg_zf (s : State) (r : Reg) (v : Word) : (s.setReg r v).zf = s.zf := by cases r <;> rfl
@[simp] theorem setReg_cf (s : State) (r : Reg) (v : Word) : (s.setReg r v).cf = s.cf := by cases r <;> rfl
@[simp] theorem setReg_sf (s : State) (r : Reg) (v : Word) : (s.setReg r v).sf = s.sf := by cases r <;> rfl
@[simp] theorem setReg_ie (s : State) (r : Reg) (v : Word) : (s.setReg r v).ie = s.ie := by cases r <;> rfl
@[simp] theorem setReg_stepCtr (s : State) (r : Reg) (v : Word) : (s.setReg r v).stepCtr = s.stepCtr := by cases r <;> rfl
@[simp] theorem setReg_run (s : State) (r : Reg) (v : Word) : (s.setReg r v).run = s.run := by cases r <;> rfl
@[simp] theorem setReg_rom (s : State) (r : Reg) (v : Word) : (s.setReg r v).rom = s.rom := by cases r <;> rfl
@[simp] theorem setReg_mem (s : State) (r : Reg) (v : Word) : (s.setReg r v).mem = s.mem := by cases r <;> rfl
@[simp] theorem setReg_grain (s : State) (r : Reg) (v : Word) : (s.setReg r v).grain = s.grain := by cases r <;> rfl

@[simp] theorem regWrite_ip (s : State) (i : Nibble) (wid : WidCode) (d : Word) : (regWrite s i wid d).ip = s.ip := by
  unfold regWrite; split <;> simp
@[simp] theorem regWrite_iw (s : State) (i : Nibble) (wid : WidCode) (d : Word) : (regWrite s i wid d).iw = s.iw := by
  unfold regWrite; split <;> simp
@[simp] theorem regWrite_ow (s : State) (i : Nibble) (wid : WidCode) (d : Word) : (regWrite s i wid d).ow = s.ow := by
  unfold regWrite; split <;> simp
@[simp] theorem regWrite_t0 (s : State) (i : Nibble) (wid : WidCode) (d : Word) : (regWrite s i wid d).t0 = s.t0 := by
  unfold regWrite; split <;> simp
@[simp] theorem regWrite_t1 (s : State) (i : Nibble) (wid : WidCode) (d : Word) : (regWrite s i wid d).t1 = s.t1 := by
  unfold regWrite; split <;> simp
@[simp] theorem regWrite_zf (s : State) (i : Nibble) (wid : WidCode) (d : Word) : (regWrite s i wid d).zf = s.zf := by
  unfold regWrite; split <;> simp
@[simp] theorem regWrite_cf (s : State) (i : Nibble) (wid : WidCode) (d : Word) : (regWrite s i wid d).cf = s.cf := by
  unfold regWrite; split <;> simp
@[simp] theorem regWrite_sf (s : State) (i : Nibble) (wid : WidCode) (d : Word) : (regWrite s i wid d).sf = s.sf := by
  unfold regWrite; split <;> simp
@[simp] theorem regWrite_ie (s : State) (i : Nibble) (wid : WidCode) (d : Word) : (regWrite s i wid d).ie = s.ie := by
  unfold regWrite; split <;> simp
@[simp] theorem regWrite_stepCtr (s : State) (i : Nibble) (wid : WidCode) (d : Word) : (regWrite s i wid d).stepCtr = s.stepCtr := by
  unfold regWrite; split <;> simp
@[simp] theorem regWrite_run (s : State) (i : Nibble) (wid : WidCode) (d : Word) : (regWrite s i wid d).run = s.run := by
  unfold regWrite; split <;> simp
@[simp] theorem regWrite_rom (s : State) (i : Nibble) (wid : WidCode) (d : Word) : (regWrite s i wid d).rom = s.rom := by
  unfold regWrite; split <;> simp
@[simp] theorem regWrite_mem (s : State) (i : Nibble) (wid : WidCode) (d : Word) : (regWrite s i wid d).mem = s.mem := by
  unfold regWrite; split <;> simp
@[simp] theorem regWrite_grain (s : State) (i : Nibble) (wid : WidCode) (d : Word) : (regWrite s i wid d).grain = s.grain := by
  unfold regWrite; split <;> simp

/-! ### The input phase -/

@[simp] theorem latchPhase_r0 (lat : LatCode) (s0 : State) (d : Word) (s : State) : (latchPhase lat s0 d s).r0 = s.r0 := by cases lat <;> rfl
@[simp] theorem latchPhase_r1 (lat : LatCode) (s0 : State) (d : Word) (s : State) : (latchPhase lat s0 d s).r1 = s.r1 := by cases lat <;> rfl
@[simp] theorem latchPhase_r2 (lat : LatCode) (s0 : State) (d : Word) (s : State) : (latchPhase lat s0 d s).r2 = s.r2 := by cases lat <;> rfl
@[simp] theorem latchPhase_r3 (lat : LatCode) (s0 : State) (d : Word) (s : State) : (latchPhase lat s0 d s).r3 = s.r3 := by cases lat <;> rfl
@[simp] theorem latchPhase_sp (lat : LatCode) (s0 : State) (d : Word) (s : State) : (latchPhase lat s0 d s).sp = s.sp := by cases lat <;> rfl
@[simp] theorem latchPhase_ss (lat : LatCode) (s0 : State) (d : Word) (s : State) : (latchPhase lat s0 d s).ss = s.ss := by cases lat <;> rfl
@[simp] theorem latchPhase_cs (lat : LatCode) (s0 : State) (d : Word) (s : State) : (latchPhase lat s0 d s).cs = s.cs := by cases lat <;> rfl
@[simp] theorem latchPhase_ds (lat : LatCode) (s0 : State) (d : Word) (s : State) : (latchPhase lat s0 d s).ds = s.ds := by cases lat <;> rfl
@[simp] theorem latchPhase_ip (lat : LatCode) (s0 : State) (d : Word) (s : State) : (latchPhase lat s0 d s).ip = s.ip := by cases lat <;> rfl
@[simp] theorem latchPhase_t0 (lat : LatCode) (s0 : State) (d : Word) (s : State) : (latchPhase lat s0 d s).t0 = s.t0 := by cases lat <;> rfl
@[simp] theorem latchPhase_t1 (lat : LatCode) (s0 : State) (d : Word) (s : State) : (latchPhase lat s0 d s).t1 = s.t1 := by cases lat <;> rfl
@[simp] theorem latchPhase_zf (lat : LatCode) (s0 : State) (d : Word) (s : State) : (latchPhase lat s0 d s).zf = s.zf := by cases lat <;> rfl
@[simp] theorem latchPhase_cf (lat : LatCode) (s0 : State) (d : Word) (s : State) : (latchPhase lat s0 d s).cf = s.cf := by cases lat <;> rfl
@[simp] theorem latchPhase_sf (lat : LatCode) (s0 : State) (d : Word) (s : State) : (latchPhase lat s0 d s).sf = s.sf := by cases lat <;> rfl
@[simp] theorem latchPhase_ie (lat : LatCode) (s0 : State) (d : Word) (s : State) : (latchPhase lat s0 d s).ie = s.ie := by cases lat <;> rfl
@[simp] theorem latchPhase_stepCtr (lat : LatCode) (s0 : State) (d : Word) (s : State) : (latchPhase lat s0 d s).stepCtr = s.stepCtr := by cases lat <;> rfl
@[simp] theorem latchPhase_run (lat : LatCode) (s0 : State) (d : Word) (s : State) : (latchPhase lat s0 d s).run = s.run := by cases lat <;> rfl
@[simp] theorem latchPhase_rom (lat : LatCode) (s0 : State) (d : Word) (s : State) : (latchPhase lat s0 d s).rom = s.rom := by cases lat <;> rfl
@[simp] theorem latchPhase_mem (lat : LatCode) (s0 : State) (d : Word) (s : State) : (latchPhase lat s0 d s).mem = s.mem := by cases lat <;> rfl
@[simp] theorem latchPhase_grain (lat : LatCode) (s0 : State) (d : Word) (s : State) : (latchPhase lat s0 d s).grain = s.grain := by cases lat <;> rfl

@[simp] theorem destPhase_ip (dst : DstCode) (wid : WidCode) (s0 : State) (d : Word) (s : State) : (destPhase dst wid s0 d s).ip = s.ip := by
  cases dst <;> simp [destPhase]
@[simp] theorem destPhase_iw (dst : DstCode) (wid : WidCode) (s0 : State) (d : Word) (s : State) : (destPhase dst wid s0 d s).iw = s.iw := by
  cases dst <;> simp [destPhase]
@[simp] theorem destPhase_ow (dst : DstCode) (wid : WidCode) (s0 : State) (d : Word) (s : State) : (destPhase dst wid s0 d s).ow = s.ow := by
  cases dst <;> simp [destPhase]
@[simp] theorem destPhase_zf (dst : DstCode) (wid : WidCode) (s0 : State) (d : Word) (s : State) : (destPhase dst wid s0 d s).zf = s.zf := by
  cases dst <;> simp [destPhase]
@[simp] theorem destPhase_cf (dst : DstCode) (wid : WidCode) (s0 : State) (d : Word) (s : State) : (destPhase dst wid s0 d s).cf = s.cf := by
  cases dst <;> simp [destPhase]
@[simp] theorem destPhase_sf (dst : DstCode) (wid : WidCode) (s0 : State) (d : Word) (s : State) : (destPhase dst wid s0 d s).sf = s.sf := by
  cases dst <;> simp [destPhase]
@[simp] theorem destPhase_stepCtr (dst : DstCode) (wid : WidCode) (s0 : State) (d : Word) (s : State) : (destPhase dst wid s0 d s).stepCtr = s.stepCtr := by
  cases dst <;> simp [destPhase]
@[simp] theorem destPhase_run (dst : DstCode) (wid : WidCode) (s0 : State) (d : Word) (s : State) : (destPhase dst wid s0 d s).run = s.run := by
  cases dst <;> simp [destPhase]
@[simp] theorem destPhase_rom (dst : DstCode) (wid : WidCode) (s0 : State) (d : Word) (s : State) : (destPhase dst wid s0 d s).rom = s.rom := by
  cases dst <;> simp [destPhase]
@[simp] theorem destPhase_mem (dst : DstCode) (wid : WidCode) (s0 : State) (d : Word) (s : State) : (destPhase dst wid s0 d s).mem = s.mem := by
  cases dst <;> simp [destPhase]
@[simp] theorem destPhase_grain (dst : DstCode) (wid : WidCode) (s0 : State) (d : Word) (s : State) : (destPhase dst wid s0 d s).grain = s.grain := by
  cases dst <;> simp [destPhase]

@[simp] theorem flagPhase_r0 (op : AluCode) (out : AluOut) (s : State) : (flagPhase op out s).r0 = s.r0 := by cases op <;> rfl
@[simp] theorem flagPhase_r1 (op : AluCode) (out : AluOut) (s : State) : (flagPhase op out s).r1 = s.r1 := by cases op <;> rfl
@[simp] theorem flagPhase_r2 (op : AluCode) (out : AluOut) (s : State) : (flagPhase op out s).r2 = s.r2 := by cases op <;> rfl
@[simp] theorem flagPhase_r3 (op : AluCode) (out : AluOut) (s : State) : (flagPhase op out s).r3 = s.r3 := by cases op <;> rfl
@[simp] theorem flagPhase_sp (op : AluCode) (out : AluOut) (s : State) : (flagPhase op out s).sp = s.sp := by cases op <;> rfl
@[simp] theorem flagPhase_ss (op : AluCode) (out : AluOut) (s : State) : (flagPhase op out s).ss = s.ss := by cases op <;> rfl
@[simp] theorem flagPhase_cs (op : AluCode) (out : AluOut) (s : State) : (flagPhase op out s).cs = s.cs := by cases op <;> rfl
@[simp] theorem flagPhase_ds (op : AluCode) (out : AluOut) (s : State) : (flagPhase op out s).ds = s.ds := by cases op <;> rfl
@[simp] theorem flagPhase_ip (op : AluCode) (out : AluOut) (s : State) : (flagPhase op out s).ip = s.ip := by cases op <;> rfl
@[simp] theorem flagPhase_iw (op : AluCode) (out : AluOut) (s : State) : (flagPhase op out s).iw = s.iw := by cases op <;> rfl
@[simp] theorem flagPhase_ow (op : AluCode) (out : AluOut) (s : State) : (flagPhase op out s).ow = s.ow := by cases op <;> rfl
@[simp] theorem flagPhase_t0 (op : AluCode) (out : AluOut) (s : State) : (flagPhase op out s).t0 = s.t0 := by cases op <;> rfl
@[simp] theorem flagPhase_t1 (op : AluCode) (out : AluOut) (s : State) : (flagPhase op out s).t1 = s.t1 := by cases op <;> rfl
@[simp] theorem flagPhase_ie (op : AluCode) (out : AluOut) (s : State) : (flagPhase op out s).ie = s.ie := by cases op <;> rfl
@[simp] theorem flagPhase_stepCtr (op : AluCode) (out : AluOut) (s : State) : (flagPhase op out s).stepCtr = s.stepCtr := by cases op <;> rfl
@[simp] theorem flagPhase_run (op : AluCode) (out : AluOut) (s : State) : (flagPhase op out s).run = s.run := by cases op <;> rfl
@[simp] theorem flagPhase_rom (op : AluCode) (out : AluOut) (s : State) : (flagPhase op out s).rom = s.rom := by cases op <;> rfl
@[simp] theorem flagPhase_mem (op : AluCode) (out : AluOut) (s : State) : (flagPhase op out s).mem = s.mem := by cases op <;> rfl
@[simp] theorem flagPhase_grain (op : AluCode) (out : AluOut) (s : State) : (flagPhase op out s).grain = s.grain := by cases op <;> rfl

/-! ### The parts of a macro-instruction -/

@[simp] theorem afterFetch_iw (w : Word) (s : State) : (afterFetch w s).iw = mergeFlags s w := rfl
@[simp] theorem afterFetch_ip (w : Word) (s : State) : (afterFetch w s).ip = s.ip + 2 := rfl
@[simp] theorem afterFetch_stepCtr (w : Word) (s : State) : (afterFetch w s).stepCtr = 1 := rfl
@[simp] theorem afterFetch_r0 (w : Word) (s : State) : (afterFetch w s).r0 = s.r0 := rfl
@[simp] theorem afterFetch_r1 (w : Word) (s : State) : (afterFetch w s).r1 = s.r1 := rfl
@[simp] theorem afterFetch_r2 (w : Word) (s : State) : (afterFetch w s).r2 = s.r2 := rfl
@[simp] theorem afterFetch_r3 (w : Word) (s : State) : (afterFetch w s).r3 = s.r3 := rfl
@[simp] theorem afterFetch_sp (w : Word) (s : State) : (afterFetch w s).sp = s.sp := rfl
@[simp] theorem afterFetch_ss (w : Word) (s : State) : (afterFetch w s).ss = s.ss := rfl
@[simp] theorem afterFetch_cs (w : Word) (s : State) : (afterFetch w s).cs = s.cs := rfl
@[simp] theorem afterFetch_ds (w : Word) (s : State) : (afterFetch w s).ds = s.ds := rfl
@[simp] theorem afterFetch_ow (w : Word) (s : State) : (afterFetch w s).ow = s.ow := rfl
@[simp] theorem afterFetch_t0 (w : Word) (s : State) : (afterFetch w s).t0 = s.t0 := rfl
@[simp] theorem afterFetch_t1 (w : Word) (s : State) : (afterFetch w s).t1 = s.t1 := rfl
@[simp] theorem afterFetch_zf (w : Word) (s : State) : (afterFetch w s).zf = s.zf := rfl
@[simp] theorem afterFetch_cf (w : Word) (s : State) : (afterFetch w s).cf = s.cf := rfl
@[simp] theorem afterFetch_sf (w : Word) (s : State) : (afterFetch w s).sf = s.sf := rfl
@[simp] theorem afterFetch_ie (w : Word) (s : State) : (afterFetch w s).ie = s.ie := rfl
@[simp] theorem afterFetch_run (w : Word) (s : State) : (afterFetch w s).run = s.run := rfl
@[simp] theorem afterFetch_rom (w : Word) (s : State) : (afterFetch w s).rom = s.rom := rfl
@[simp] theorem afterFetch_mem (w : Word) (s : State) : (afterFetch w s).mem = s.mem := rfl
@[simp] theorem afterFetch_grain (w : Word) (s : State) : (afterFetch w s).grain = s.grain := rfl

@[simp] theorem afterOperandByte_ow (b : Byte) (s : State) : (afterOperandByte b s).ow = b.setWidth 16 := rfl
@[simp] theorem afterOperandByte_ip (b : Byte) (s : State) : (afterOperandByte b s).ip = s.ip + 1 := rfl
@[simp] theorem afterOperandByte_stepCtr (b : Byte) (s : State) : (afterOperandByte b s).stepCtr = 2 := rfl
@[simp] theorem afterOperandByte_r0 (b : Byte) (s : State) : (afterOperandByte b s).r0 = s.r0 := rfl
@[simp] theorem afterOperandByte_r1 (b : Byte) (s : State) : (afterOperandByte b s).r1 = s.r1 := rfl
@[simp] theorem afterOperandByte_r2 (b : Byte) (s : State) : (afterOperandByte b s).r2 = s.r2 := rfl
@[simp] theorem afterOperandByte_r3 (b : Byte) (s : State) : (afterOperandByte b s).r3 = s.r3 := rfl
@[simp] theorem afterOperandByte_sp (b : Byte) (s : State) : (afterOperandByte b s).sp = s.sp := rfl
@[simp] theorem afterOperandByte_ss (b : Byte) (s : State) : (afterOperandByte b s).ss = s.ss := rfl
@[simp] theorem afterOperandByte_cs (b : Byte) (s : State) : (afterOperandByte b s).cs = s.cs := rfl
@[simp] theorem afterOperandByte_ds (b : Byte) (s : State) : (afterOperandByte b s).ds = s.ds := rfl
@[simp] theorem afterOperandByte_iw (b : Byte) (s : State) : (afterOperandByte b s).iw = s.iw := rfl
@[simp] theorem afterOperandByte_t0 (b : Byte) (s : State) : (afterOperandByte b s).t0 = s.t0 := rfl
@[simp] theorem afterOperandByte_t1 (b : Byte) (s : State) : (afterOperandByte b s).t1 = s.t1 := rfl
@[simp] theorem afterOperandByte_zf (b : Byte) (s : State) : (afterOperandByte b s).zf = s.zf := rfl
@[simp] theorem afterOperandByte_cf (b : Byte) (s : State) : (afterOperandByte b s).cf = s.cf := rfl
@[simp] theorem afterOperandByte_sf (b : Byte) (s : State) : (afterOperandByte b s).sf = s.sf := rfl
@[simp] theorem afterOperandByte_ie (b : Byte) (s : State) : (afterOperandByte b s).ie = s.ie := rfl
@[simp] theorem afterOperandByte_run (b : Byte) (s : State) : (afterOperandByte b s).run = s.run := rfl
@[simp] theorem afterOperandByte_rom (b : Byte) (s : State) : (afterOperandByte b s).rom = s.rom := rfl
@[simp] theorem afterOperandByte_mem (b : Byte) (s : State) : (afterOperandByte b s).mem = s.mem := rfl
@[simp] theorem afterOperandByte_grain (b : Byte) (s : State) : (afterOperandByte b s).grain = s.grain := rfl

@[simp] theorem afterOperandWord_t1 (v : Word) (s : State) : (afterOperandWord v s).t1 = v := rfl
@[simp] theorem afterOperandWord_ip (v : Word) (s : State) : (afterOperandWord v s).ip = s.ip + 2 := rfl
@[simp] theorem afterOperandWord_stepCtr (v : Word) (s : State) : (afterOperandWord v s).stepCtr = 2 := rfl
@[simp] theorem afterOperandWord_r0 (v : Word) (s : State) : (afterOperandWord v s).r0 = s.r0 := rfl
@[simp] theorem afterOperandWord_r1 (v : Word) (s : State) : (afterOperandWord v s).r1 = s.r1 := rfl
@[simp] theorem afterOperandWord_r2 (v : Word) (s : State) : (afterOperandWord v s).r2 = s.r2 := rfl
@[simp] theorem afterOperandWord_r3 (v : Word) (s : State) : (afterOperandWord v s).r3 = s.r3 := rfl
@[simp] theorem afterOperandWord_sp (v : Word) (s : State) : (afterOperandWord v s).sp = s.sp := rfl
@[simp] theorem afterOperandWord_ss (v : Word) (s : State) : (afterOperandWord v s).ss = s.ss := rfl
@[simp] theorem afterOperandWord_cs (v : Word) (s : State) : (afterOperandWord v s).cs = s.cs := rfl
@[simp] theorem afterOperandWord_ds (v : Word) (s : State) : (afterOperandWord v s).ds = s.ds := rfl
@[simp] theorem afterOperandWord_iw (v : Word) (s : State) : (afterOperandWord v s).iw = s.iw := rfl
@[simp] theorem afterOperandWord_ow (v : Word) (s : State) : (afterOperandWord v s).ow = s.ow := rfl
@[simp] theorem afterOperandWord_t0 (v : Word) (s : State) : (afterOperandWord v s).t0 = s.t0 := rfl
@[simp] theorem afterOperandWord_zf (v : Word) (s : State) : (afterOperandWord v s).zf = s.zf := rfl
@[simp] theorem afterOperandWord_cf (v : Word) (s : State) : (afterOperandWord v s).cf = s.cf := rfl
@[simp] theorem afterOperandWord_sf (v : Word) (s : State) : (afterOperandWord v s).sf = s.sf := rfl
@[simp] theorem afterOperandWord_ie (v : Word) (s : State) : (afterOperandWord v s).ie = s.ie := rfl
@[simp] theorem afterOperandWord_run (v : Word) (s : State) : (afterOperandWord v s).run = s.run := rfl
@[simp] theorem afterOperandWord_rom (v : Word) (s : State) : (afterOperandWord v s).rom = s.rom := rfl
@[simp] theorem afterOperandWord_mem (v : Word) (s : State) : (afterOperandWord v s).mem = s.mem := rfl
@[simp] theorem afterOperandWord_grain (v : Word) (s : State) : (afterOperandWord v s).grain = s.grain := rfl

@[simp] theorem returned_stepCtr (s : State) : (returned s).stepCtr = 0 := rfl
@[simp] theorem returned_r0 (s : State) : (returned s).r0 = s.r0 := rfl
@[simp] theorem returned_r1 (s : State) : (returned s).r1 = s.r1 := rfl
@[simp] theorem returned_r2 (s : State) : (returned s).r2 = s.r2 := rfl
@[simp] theorem returned_r3 (s : State) : (returned s).r3 = s.r3 := rfl
@[simp] theorem returned_sp (s : State) : (returned s).sp = s.sp := rfl
@[simp] theorem returned_ss (s : State) : (returned s).ss = s.ss := rfl
@[simp] theorem returned_cs (s : State) : (returned s).cs = s.cs := rfl
@[simp] theorem returned_ds (s : State) : (returned s).ds = s.ds := rfl
@[simp] theorem returned_ip (s : State) : (returned s).ip = s.ip := rfl
@[simp] theorem returned_iw (s : State) : (returned s).iw = s.iw := rfl
@[simp] theorem returned_ow (s : State) : (returned s).ow = s.ow := rfl
@[simp] theorem returned_t0 (s : State) : (returned s).t0 = s.t0 := rfl
@[simp] theorem returned_t1 (s : State) : (returned s).t1 = s.t1 := rfl
@[simp] theorem returned_zf (s : State) : (returned s).zf = s.zf := rfl
@[simp] theorem returned_cf (s : State) : (returned s).cf = s.cf := rfl
@[simp] theorem returned_sf (s : State) : (returned s).sf = s.sf := rfl
@[simp] theorem returned_ie (s : State) : (returned s).ie = s.ie := rfl
@[simp] theorem returned_run (s : State) : (returned s).run = s.run := rfl
@[simp] theorem returned_rom (s : State) : (returned s).rom = s.rom := rfl
@[simp] theorem returned_mem (s : State) : (returned s).mem = s.mem := rfl
@[simp] theorem returned_grain (s : State) : (returned s).grain = s.grain := rfl

@[simp] theorem withFlags_zf (out : AluOut) (s : State) : (withFlags out s).zf = out.z := rfl
@[simp] theorem withFlags_cf (out : AluOut) (s : State) : (withFlags out s).cf = out.c := rfl
@[simp] theorem withFlags_sf (out : AluOut) (s : State) : (withFlags out s).sf = out.s := rfl
@[simp] theorem withFlags_r0 (out : AluOut) (s : State) : (withFlags out s).r0 = s.r0 := rfl
@[simp] theorem withFlags_r1 (out : AluOut) (s : State) : (withFlags out s).r1 = s.r1 := rfl
@[simp] theorem withFlags_r2 (out : AluOut) (s : State) : (withFlags out s).r2 = s.r2 := rfl
@[simp] theorem withFlags_r3 (out : AluOut) (s : State) : (withFlags out s).r3 = s.r3 := rfl
@[simp] theorem withFlags_sp (out : AluOut) (s : State) : (withFlags out s).sp = s.sp := rfl
@[simp] theorem withFlags_ss (out : AluOut) (s : State) : (withFlags out s).ss = s.ss := rfl
@[simp] theorem withFlags_cs (out : AluOut) (s : State) : (withFlags out s).cs = s.cs := rfl
@[simp] theorem withFlags_ds (out : AluOut) (s : State) : (withFlags out s).ds = s.ds := rfl
@[simp] theorem withFlags_ip (out : AluOut) (s : State) : (withFlags out s).ip = s.ip := rfl
@[simp] theorem withFlags_iw (out : AluOut) (s : State) : (withFlags out s).iw = s.iw := rfl
@[simp] theorem withFlags_ow (out : AluOut) (s : State) : (withFlags out s).ow = s.ow := rfl
@[simp] theorem withFlags_t0 (out : AluOut) (s : State) : (withFlags out s).t0 = s.t0 := rfl
@[simp] theorem withFlags_t1 (out : AluOut) (s : State) : (withFlags out s).t1 = s.t1 := rfl
@[simp] theorem withFlags_ie (out : AluOut) (s : State) : (withFlags out s).ie = s.ie := rfl
@[simp] theorem withFlags_stepCtr (out : AluOut) (s : State) : (withFlags out s).stepCtr = s.stepCtr := rfl
@[simp] theorem withFlags_run (out : AluOut) (s : State) : (withFlags out s).run = s.run := rfl
@[simp] theorem withFlags_rom (out : AluOut) (s : State) : (withFlags out s).rom = s.rom := rfl
@[simp] theorem withFlags_mem (out : AluOut) (s : State) : (withFlags out s).mem = s.mem := rfl
@[simp] theorem withFlags_grain (out : AluOut) (s : State) : (withFlags out s).grain = s.grain := rfl

end Sys2Proof.Machine
end

