-- ==== Sys2Proof/Laws/Memory.lean ====
section
/-! SUPPORT. What the memory operations do, once for each: a read changes nothing but the log of window accesses, a write changes
nothing but the bytes at its locations and that log, and both keep the canonical form. -/

namespace Sys2Proof.Machine

/-- A byte read changes nothing but the log. -/
theorem readByte_frame (m : Memory) (seg off : Word) :
    (m.readByte seg off).2.phys = m.phys ∧ (m.readByte seg off).2.windows = m.windows ∧
      (m.readByte seg off).2.cells = m.cells := by
  unfold Memory.readByte
  dsimp only
  split <;> exact ⟨rfl, rfl, rfl⟩

@[simp] theorem readByte_phys (m : Memory) (seg off : Word) : (m.readByte seg off).2.phys = m.phys :=
  (readByte_frame m seg off).1

@[simp] theorem readByte_windows (m : Memory) (seg off : Word) : (m.readByte seg off).2.windows = m.windows :=
  (readByte_frame m seg off).2.1

@[simp] theorem readByte_cells (m : Memory) (seg off : Word) : (m.readByte seg off).2.cells = m.cells :=
  (readByte_frame m seg off).2.2

/-- A byte read of a RAM-like location gives its byte and changes nothing. -/
theorem readByte_ram {m : Memory} {seg off : Word} (h : m.locate seg off ∉ m.windows) :
    m.readByte seg off = (m.byteAt (m.locate seg off), m) := by
  simp [Memory.readByte, h]

/-- A read changes nothing but the log. -/
theorem read_frame (m : Memory) (wid : WidCode) (seg off : Word) :
    (m.read wid seg off).2.phys = m.phys ∧ (m.read wid seg off).2.windows = m.windows ∧
      (m.read wid seg off).2.cells = m.cells := by
  cases wid <;> simp [Memory.read]

@[simp] theorem read_phys (m : Memory) (wid : WidCode) (seg off : Word) : (m.read wid seg off).2.phys = m.phys :=
  (read_frame m wid seg off).1

@[simp] theorem read_windows (m : Memory) (wid : WidCode) (seg off : Word) : (m.read wid seg off).2.windows = m.windows :=
  (read_frame m wid seg off).2.1

@[simp] theorem read_cells (m : Memory) (wid : WidCode) (seg off : Word) : (m.read wid seg off).2.cells = m.cells :=
  (read_frame m wid seg off).2.2

@[simp] theorem writeByte_phys (m : Memory) (seg off : Word) (b : Byte) : (m.writeByte seg off b).phys = m.phys := by
  unfold Memory.writeByte; dsimp only; split <;> rfl

@[simp] theorem writeByte_windows (m : Memory) (seg off : Word) (b : Byte) :
    (m.writeByte seg off b).windows = m.windows := by
  unfold Memory.writeByte; dsimp only; split <;> rfl

@[simp] theorem write_phys (m : Memory) (wid : WidCode) (seg off v : Word) : (m.write wid seg off v).phys = m.phys := by
  cases wid <;> simp [Memory.write]

@[simp] theorem write_windows (m : Memory) (wid : WidCode) (seg off v : Word) :
    (m.write wid seg off v).windows = m.windows := by
  cases wid <;> simp [Memory.write]

/-- The decoding depends on PHYS alone. -/
theorem locate_congr {m n : Memory} (h : m.phys = n.phys) (seg off : Word) : m.locate seg off = n.locate seg off := by
  simp [Memory.locate, h]

/-- The canonical form depends on PHYS, the windows and the bytes, not on the log. -/
theorem memory_wf_congr {m n : Memory} (hp : m.phys = n.phys) (hw : m.windows = n.windows) (hc : m.cells = n.cells) :
    m.wf = n.wf := by
  simp [Memory.wf, hp, hw, hc]

/-- The parts of the canonical form. -/
theorem memory_wf_cells {m : Memory} (h : m.wf = true) : sparseWf (fun _ => Config.memDefault) m.cells = true := by
  simp only [Memory.wf, Bool.and_eq_true] at h
  exact h.2

/-- A byte write keeps the canonical form. -/
theorem writeByte_wf {m : Memory} (h : m.wf = true) (seg off : Word) (b : Byte) : (m.writeByte seg off b).wf = true := by
  unfold Memory.writeByte
  dsimp only
  split
  · exact h
  · simp only [Memory.wf, Bool.and_eq_true] at h ⊢
    exact ⟨h.1, sparseSet_wf h.2⟩

/-- A write keeps the canonical form. -/
theorem write_wf {m : Memory} (h : m.wf = true) (wid : WidCode) (seg off v : Word) : (m.write wid seg off v).wf = true := by
  cases wid <;> simp only [Memory.write] <;> exact writeByte_wf (by first | exact h | exact writeByte_wf h ..) ..

/-- A read keeps the canonical form. -/
theorem read_wf {m : Memory} (h : m.wf = true) (wid : WidCode) (seg off : Word) : (m.read wid seg off).2.wf = true := by
  rw [memory_wf_congr (read_phys m wid seg off) (read_windows m wid seg off) (read_cells m wid seg off)]
  exact h

/-- Placing bytes keeps the canonical form. -/
theorem place_wf {m : Memory} (h : m.wf = true) (seg off : Word) (bytes : List Byte) : (m.place seg off bytes).wf = true := by
  induction bytes generalizing m off with
  | nil => exact h
  | cons b t ih => exact ih (writeByte_wf h seg off b) (off + 1)

/-- Placing a control word keeps the canonical form of the control store. -/
theorem romPlace_wf {rom : List (Nat × ControlBits)} (h : romWf rom = true) (a : Word) (w : ControlBits) :
    romWf (romPlace rom a w) = true := by
  simp only [romWf, romPlace, Bool.and_eq_true] at h ⊢
  exact ⟨sparseSet_wf h.1, sparseSet_all (p := fun k => decide (k < 65536)) h.2 (decide_eq_true a.isLt)⟩

/-- The byte at a location after a byte write: the written byte at the location of a RAM-like pair, every other location as before,
a window's write changing none. -/
theorem writeByte_byteAt {m : Memory} (h : m.wf = true) (seg off : Word) (b : Byte) (l : Nat) :
    (m.writeByte seg off b).byteAt l =
      if m.locate seg off ∉ m.windows ∧ m.locate seg off = l then b else m.byteAt l := by
  unfold Memory.writeByte Memory.byteAt
  dsimp only
  split
  · simp_all
  · rename_i hw
    rw [sparseSet_get (memory_wf_cells h)]
    simp [hw]

/-- The reset state's maps are in their canonical forms. -/
theorem reset_maps_wf : State.reset.mem.wf = true ∧ romWf State.reset.rom = true := by decide

end Sys2Proof.Machine
end

