-- ==== Sys2Proof/Laws/PerInstr.lean ====
section
/-! SUPPORT. A family of statements about every instruction: the encoding of an instruction has the bits that spec/opcode_table.json
fixes for its row (the table's `fixed`: lowest bit, width, value). ILLEGAL's row fixes none; the row of the step target
fixes none that all its words share. -/

namespace Sys2Proof.Laws

/-- The bits that encode an instruction: its control word, or its instruction word in bits 15:0. -/
def rowBits (i : Instr) : BitVec 32 :=
  match i.controlWord? with
  | some cw => encodeControl cw
  | none => i.instrWord.setWidth 32

/-- The table's fixed bits of a row: lowest bit, width, value. -/
def rowFixed : Instr → Nat × Nat × Nat
  | .ipcNone _ => (0, 3, 0)
  | .ipcIpc1 _ => (0, 3, 1)
  | .ipcIpc2 _ => (0, 3, 2)
  | .ipcIpc4 _ => (0, 3, 3)
  | .ipcJmp _ => (0, 3, 4)
  | .ipcHlt _ => (0, 3, 5)
  | .ipcRtn _ => (0, 3, 6)
  | .ipcReserved7 _ => (0, 3, 7)
  | .latNone _ => (3, 2, 0)
  | .latIi _ => (3, 2, 1)
  | .latOi _ => (3, 2, 2)
  | .latReserved3 _ => (3, 2, 3)
  | .baNone _ => (5, 3, 0)
  | .baR1 _ => (5, 3, 1)
  | .baT0 _ => (5, 3, 2)
  | .baT1 _ => (5, 3, 3)
  | .baSp _ => (5, 3, 4)
  | .baIe _ => (5, 3, 5)
  | .baReserved6 _ => (5, 3, 6)
  | .baReserved7 _ => (5, 3, 7)
  | .bbNone _ => (8, 3, 0)
  | .bbR2 _ => (8, 3, 1)
  | .bbT0 _ => (8, 3, 2)
  | .bbT1 _ => (8, 3, 3)
  | .bbK1 _ => (8, 3, 4)
  | .bbK2 _ => (8, 3, 5)
  | .bbK4 _ => (8, 3, 6)
  | .bbK8 _ => (8, 3, 7)
  | .aluNone _ => (11, 3, 0)
  | .aluAdd _ => (11, 3, 1)
  | .aluSub _ => (11, 3, 2)
  | .aluOr _ => (11, 3, 3)
  | .aluXor _ => (11, 3, 4)
  | .aluAnd _ => (11, 3, 5)
  | .aluShl _ => (11, 3, 6)
  | .aluShr _ => (11, 3, 7)
  | .dstNone _ => (14, 3, 0)
  | .dstR1 _ => (14, 3, 1)
  | .dstR2 _ => (14, 3, 2)
  | .dstT0 _ => (14, 3, 3)
  | .dstT1 _ => (14, 3, 4)
  | .dstSp _ => (14, 3, 5)
  | .dstIe _ => (14, 3, 6)
  | .dstReserved7 _ => (14, 3, 7)
  | .widWord _ => (17, 2, 0)
  | .widByte _ => (17, 2, 1)
  | .widByteh _ => (17, 2, 2)
  | .widBytez _ => (17, 2, 3)
  | .segNone _ => (19, 3, 0)
  | .segCs _ => (19, 3, 1)
  | .segSs _ => (19, 3, 2)
  | .segSegi _ => (19, 3, 3)
  | .segSego _ => (19, 3, 4)
  | .segInt _ => (19, 3, 5)
  | .segReserved6 _ => (19, 3, 6)
  | .segReserved7 _ => (19, 3, 7)
  | .memNone _ => (22, 2, 0)
  | .memRdip _ => (22, 2, 1)
  | .memRdt _ => (22, 2, 2)
  | .memWrt _ => (22, 2, 3)
  | .cjcNone _ => (24, 2, 0)
  | .cjcCjz _ => (24, 2, 1)
  | .cjcCjc _ => (24, 2, 2)
  | .cjcCjs _ => (24, 2, 3)
  | .cjtRange _ => (0, 0, 0)
  | .nop _ => (4, 12, 0)
  | .hlt _ => (4, 12, 64)
  | .movRegImm16 _ _ => (4, 12, 139)
  | .movRegImm8 _ _ => (4, 12, 138)
  | .movRegReg _ _ => (4, 12, 137)
  | .movMemImm _ _ _ => (4, 12, 163)
  | .movRegMemw _ _ => (4, 12, 141)
  | .movRegMemb _ _ => (4, 12, 143)
  | .addRegReg _ _ => (4, 12, 201)
  | .addRegImm16 _ _ => (4, 12, 203)
  | .subRegReg _ _ => (4, 12, 265)
  | .subRegImm16 _ _ => (4, 12, 267)
  | .shlRegImm8 _ _ => (4, 12, 522)
  | .jmp _ _ _ => (7, 9, 299)
  | .jz _ _ _ => (7, 9, 307)
  | .jnz _ _ _ => (7, 9, 315)
  | .illegal _ => (0, 0, 0)

/-- The encoding carries the row's fixed bits. -/
def RowMatch.Statement (i : Instr) : Prop :=
  ((rowBits i).extractLsb' (rowFixed i).1 (rowFixed i).2.1).toNat = (rowFixed i).2.2

/-- An instruction word's bits 15:4 are those of its block. -/
theorem withIndex_block (b : Word) (r : Nibble) :
    (((withIndex b r).setWidth 32).extractLsb' 4 12).toNat = (b.extractLsb' 4 12).toNat := by
  congr 1
  unfold withIndex
  ext i hi
  interval_cases i <;> simp [BitVec.getLsbD_of_ge]

/-- A one-operand word's bits 15:7 are those of its group. -/
theorem oneOperandWord_group (g : Word) (slot : BitVec 3) (low : Nibble) :
    (((oneOperandWord g slot low).setWidth 32).extractLsb' 7 9).toNat = (g.extractLsb' 7 9).toNat := by
  congr 1
  unfold oneOperandWord
  ext i hi
  interval_cases i <;> simp [BitVec.getLsbD_of_ge]


theorem RowMatch.ipcNone (cw : ControlWord) : RowMatch.Statement (.ipcNone cw) :=
  congrArg BitVec.toNat (encodeControl_ipc { cw with ipc := .none })

theorem RowMatch.ipcIpc1 (cw : ControlWord) : RowMatch.Statement (.ipcIpc1 cw) :=
  congrArg BitVec.toNat (encodeControl_ipc { cw with ipc := .ipc1 })

theorem RowMatch.ipcIpc2 (cw : ControlWord) : RowMatch.Statement (.ipcIpc2 cw) :=
  congrArg BitVec.toNat (encodeControl_ipc { cw with ipc := .ipc2 })

theorem RowMatch.ipcIpc4 (cw : ControlWord) : RowMatch.Statement (.ipcIpc4 cw) :=
  congrArg BitVec.toNat (encodeControl_ipc { cw with ipc := .ipc4 })

theorem RowMatch.ipcJmp (cw : ControlWord) : RowMatch.Statement (.ipcJmp cw) :=
  congrArg BitVec.toNat (encodeControl_ipc { cw with ipc := .jmp })

theorem RowMatch.ipcHlt (cw : ControlWord) : RowMatch.Statement (.ipcHlt cw) :=
  congrArg BitVec.toNat (encodeControl_ipc { cw with ipc := .hlt })

theorem RowMatch.ipcRtn (cw : ControlWord) : RowMatch.Statement (.ipcRtn cw) :=
  congrArg BitVec.toNat (encodeControl_ipc { cw with ipc := .rtn })

theorem RowMatch.ipcReserved7 (cw : ControlWord) : RowMatch.Statement (.ipcReserved7 cw) :=
  congrArg BitVec.toNat (encodeControl_ipc { cw with ipc := .reserved7 })

theorem RowMatch.latNone (cw : ControlWord) : RowMatch.Statement (.latNone cw) :=
  congrArg BitVec.toNat (encodeControl_lat { cw with lat := .none })

theorem RowMatch.latIi (cw : ControlWord) : RowMatch.Statement (.latIi cw) :=
  congrArg BitVec.toNat (encodeControl_lat { cw with lat := .ii })

theorem RowMatch.latOi (cw : ControlWord) : RowMatch.Statement (.latOi cw) :=
  congrArg BitVec.toNat (encodeControl_lat { cw with lat := .oi })

theorem RowMatch.latReserved3 (cw : ControlWord) : RowMatch.Statement (.latReserved3 cw) :=
  congrArg BitVec.toNat (encodeControl_lat { cw with lat := .reserved3 })

theorem RowMatch.baNone (cw : ControlWord) : RowMatch.Statement (.baNone cw) :=
  congrArg BitVec.toNat (encodeControl_ba { cw with ba := .none })

theorem RowMatch.baR1 (cw : ControlWord) : RowMatch.Statement (.baR1 cw) :=
  congrArg BitVec.toNat (encodeControl_ba { cw with ba := .r1 })

theorem RowMatch.baT0 (cw : ControlWord) : RowMatch.Statement (.baT0 cw) :=
  congrArg BitVec.toNat (encodeControl_ba { cw with ba := .t0 })

theorem RowMatch.baT1 (cw : ControlWord) : RowMatch.Statement (.baT1 cw) :=
  congrArg BitVec.toNat (encodeControl_ba { cw with ba := .t1 })

theorem RowMatch.baSp (cw : ControlWord) : RowMatch.Statement (.baSp cw) :=
  congrArg BitVec.toNat (encodeControl_ba { cw with ba := .sp })

theorem RowMatch.baIe (cw : ControlWord) : RowMatch.Statement (.baIe cw) :=
  congrArg BitVec.toNat (encodeControl_ba { cw with ba := .ie })

theorem RowMatch.baReserved6 (cw : ControlWord) : RowMatch.Statement (.baReserved6 cw) :=
  congrArg BitVec.toNat (encodeControl_ba { cw with ba := .reserved6 })

theorem RowMatch.baReserved7 (cw : ControlWord) : RowMatch.Statement (.baReserved7 cw) :=
  congrArg BitVec.toNat (encodeControl_ba { cw with ba := .reserved7 })

theorem RowMatch.bbNone (cw : ControlWord) : RowMatch.Statement (.bbNone cw) :=
  congrArg BitVec.toNat (encodeControl_bb { cw with bb := .none })

theorem RowMatch.bbR2 (cw : ControlWord) : RowMatch.Statement (.bbR2 cw) :=
  congrArg BitVec.toNat (encodeControl_bb { cw with bb := .r2 })

theorem RowMatch.bbT0 (cw : ControlWord) : RowMatch.Statement (.bbT0 cw) :=
  congrArg BitVec.toNat (encodeControl_bb { cw with bb := .t0 })

theorem RowMatch.bbT1 (cw : ControlWord) : RowMatch.Statement (.bbT1 cw) :=
  congrArg BitVec.toNat (encodeControl_bb { cw with bb := .t1 })

theorem RowMatch.bbK1 (cw : ControlWord) : RowMatch.Statement (.bbK1 cw) :=
  congrArg BitVec.toNat (encodeControl_bb { cw with bb := .k1 })

theorem RowMatch.bbK2 (cw : ControlWord) : RowMatch.Statement (.bbK2 cw) :=
  congrArg BitVec.toNat (encodeControl_bb { cw with bb := .k2 })

theorem RowMatch.bbK4 (cw : ControlWord) : RowMatch.Statement (.bbK4 cw) :=
  congrArg BitVec.toNat (encodeControl_bb { cw with bb := .k4 })

theorem RowMatch.bbK8 (cw : ControlWord) : RowMatch.Statement (.bbK8 cw) :=
  congrArg BitVec.toNat (encodeControl_bb { cw with bb := .k8 })

theorem RowMatch.aluNone (cw : ControlWord) : RowMatch.Statement (.aluNone cw) :=
  congrArg BitVec.toNat (encodeControl_alu { cw with alu := .none })

theorem RowMatch.aluAdd (cw : ControlWord) : RowMatch.Statement (.aluAdd cw) :=
  congrArg BitVec.toNat (encodeControl_alu { cw with alu := .add })

theorem RowMatch.aluSub (cw : ControlWord) : RowMatch.Statement (.aluSub cw) :=
  congrArg BitVec.toNat (encodeControl_alu { cw with alu := .sub })

theorem RowMatch.aluOr (cw : ControlWord) : RowMatch.Statement (.aluOr cw) :=
  congrArg BitVec.toNat (encodeControl_alu { cw with alu := .or })

theorem RowMatch.aluXor (cw : ControlWord) : RowMatch.Statement (.aluXor cw) :=
  congrArg BitVec.toNat (encodeControl_alu { cw with alu := .xor })

theorem RowMatch.aluAnd (cw : ControlWord) : RowMatch.Statement (.aluAnd cw) :=
  congrArg BitVec.toNat (encodeControl_alu { cw with alu := .and })

theorem RowMatch.aluShl (cw : ControlWord) : RowMatch.Statement (.aluShl cw) :=
  congrArg BitVec.toNat (encodeControl_alu { cw with alu := .shl })

theorem RowMatch.aluShr (cw : ControlWord) : RowMatch.Statement (.aluShr cw) :=
  congrArg BitVec.toNat (encodeControl_alu { cw with alu := .shr })

theorem RowMatch.dstNone (cw : ControlWord) : RowMatch.Statement (.dstNone cw) :=
  congrArg BitVec.toNat (encodeControl_dst { cw with dst := .none })

theorem RowMatch.dstR1 (cw : ControlWord) : RowMatch.Statement (.dstR1 cw) :=
  congrArg BitVec.toNat (encodeControl_dst { cw with dst := .r1 })

theorem RowMatch.dstR2 (cw : ControlWord) : RowMatch.Statement (.dstR2 cw) :=
  congrArg BitVec.toNat (encodeControl_dst { cw with dst := .r2 })

theorem RowMatch.dstT0 (cw : ControlWord) : RowMatch.Statement (.dstT0 cw) :=
  congrArg BitVec.toNat (encodeControl_dst { cw with dst := .t0 })

theorem RowMatch.dstT1 (cw : ControlWord) : RowMatch.Statement (.dstT1 cw) :=
  congrArg BitVec.toNat (encodeControl_dst { cw with dst := .t1 })

theorem RowMatch.dstSp (cw : ControlWord) : RowMatch.Statement (.dstSp cw) :=
  congrArg BitVec.toNat (encodeControl_dst { cw with dst := .sp })

theorem RowMatch.dstIe (cw : ControlWord) : RowMatch.Statement (.dstIe cw) :=
  congrArg BitVec.toNat (encodeControl_dst { cw with dst := .ie })

theorem RowMatch.dstReserved7 (cw : ControlWord) : RowMatch.Statement (.dstReserved7 cw) :=
  congrArg BitVec.toNat (encodeControl_dst { cw with dst := .reserved7 })

theorem RowMatch.widWord (cw : ControlWord) : RowMatch.Statement (.widWord cw) :=
  congrArg BitVec.toNat (encodeControl_wid { cw with wid := .word })

theorem RowMatch.widByte (cw : ControlWord) : RowMatch.Statement (.widByte cw) :=
  congrArg BitVec.toNat (encodeControl_wid { cw with wid := .byte })

theorem RowMatch.widByteh (cw : ControlWord) : RowMatch.Statement (.widByteh cw) :=
  congrArg BitVec.toNat (encodeControl_wid { cw with wid := .byteh })

theorem RowMatch.widBytez (cw : ControlWord) : RowMatch.Statement (.widBytez cw) :=
  congrArg BitVec.toNat (encodeControl_wid { cw with wid := .bytez })

theorem RowMatch.segNone (cw : ControlWord) : RowMatch.Statement (.segNone cw) :=
  congrArg BitVec.toNat (encodeControl_seg { cw with seg := .none })

theorem RowMatch.segCs (cw : ControlWord) : RowMatch.Statement (.segCs cw) :=
  congrArg BitVec.toNat (encodeControl_seg { cw with seg := .cs })

theorem RowMatch.segSs (cw : ControlWord) : RowMatch.Statement (.segSs cw) :=
  congrArg BitVec.toNat (encodeControl_seg { cw with seg := .ss })

theorem RowMatch.segSegi (cw : ControlWord) : RowMatch.Statement (.segSegi cw) :=
  congrArg BitVec.toNat (encodeControl_seg { cw with seg := .segi })

theorem RowMatch.segSego (cw : ControlWord) : RowMatch.Statement (.segSego cw) :=
  congrArg BitVec.toNat (encodeControl_seg { cw with seg := .sego })

theorem RowMatch.segInt (cw : ControlWord) : RowMatch.Statement (.segInt cw) :=
  congrArg BitVec.toNat (encodeControl_seg { cw with seg := .int })

theorem RowMatch.segReserved6 (cw : ControlWord) : RowMatch.Statement (.segReserved6 cw) :=
  congrArg BitVec.toNat (encodeControl_seg { cw with seg := .reserved6 })

theorem RowMatch.segReserved7 (cw : ControlWord) : RowMatch.Statement (.segReserved7 cw) :=
  congrArg BitVec.toNat (encodeControl_seg { cw with seg := .reserved7 })

theorem RowMatch.memNone (cw : ControlWord) : RowMatch.Statement (.memNone cw) :=
  congrArg BitVec.toNat (encodeControl_mem { cw with mem := .none })

theorem RowMatch.memRdip (cw : ControlWord) : RowMatch.Statement (.memRdip cw) :=
  congrArg BitVec.toNat (encodeControl_mem { cw with mem := .rdip })

theorem RowMatch.memRdt (cw : ControlWord) : RowMatch.Statement (.memRdt cw) :=
  congrArg BitVec.toNat (encodeControl_mem { cw with mem := .rdt })

theorem RowMatch.memWrt (cw : ControlWord) : RowMatch.Statement (.memWrt cw) :=
  congrArg BitVec.toNat (encodeControl_mem { cw with mem := .wrt })

theorem RowMatch.cjcNone (cw : ControlWord) : RowMatch.Statement (.cjcNone cw) :=
  congrArg BitVec.toNat (encodeControl_cjc { cw with cjc := .none })

theorem RowMatch.cjcCjz (cw : ControlWord) : RowMatch.Statement (.cjcCjz cw) :=
  congrArg BitVec.toNat (encodeControl_cjc { cw with cjc := .cjz })

theorem RowMatch.cjcCjc (cw : ControlWord) : RowMatch.Statement (.cjcCjc cw) :=
  congrArg BitVec.toNat (encodeControl_cjc { cw with cjc := .cjc })

theorem RowMatch.cjcCjs (cw : ControlWord) : RowMatch.Statement (.cjcCjs cw) :=
  congrArg BitVec.toNat (encodeControl_cjc { cw with cjc := .cjs })

theorem RowMatch.cjtRange (cw : ControlWord) : RowMatch.Statement (.cjtRange cw) := by
  simp [RowMatch.Statement, rowFixed]

theorem RowMatch.nop (low : Nibble) : RowMatch.Statement (.nop low) :=
  (withIndex_block _ low).trans rfl

theorem RowMatch.hlt (low : Nibble) : RowMatch.Statement (.hlt low) :=
  (withIndex_block _ low).trans rfl

theorem RowMatch.movRegImm16 (r : Nibble) (imm : Word) : RowMatch.Statement (.movRegImm16 r imm) :=
  (withIndex_block _ r).trans rfl

theorem RowMatch.movRegImm8 (r : Nibble) (imm : Byte) : RowMatch.Statement (.movRegImm8 r imm) :=
  (withIndex_block _ r).trans rfl

theorem RowMatch.movRegReg (r : Nibble) (operand : Byte) : RowMatch.Statement (.movRegReg r operand) :=
  (withIndex_block _ r).trans rfl

theorem RowMatch.movMemImm (seg : Nibble) (addr : Word) (value : Word) : RowMatch.Statement (.movMemImm seg addr value) :=
  (withIndex_block _ seg).trans rfl

theorem RowMatch.movRegMemw (r : Nibble) (operand : Byte) : RowMatch.Statement (.movRegMemw r operand) :=
  (withIndex_block _ r).trans rfl

theorem RowMatch.movRegMemb (r : Nibble) (operand : Byte) : RowMatch.Statement (.movRegMemb r operand) :=
  (withIndex_block _ r).trans rfl

theorem RowMatch.addRegReg (r : Nibble) (operand : Byte) : RowMatch.Statement (.addRegReg r operand) :=
  (withIndex_block _ r).trans rfl

theorem RowMatch.addRegImm16 (r : Nibble) (imm : Word) : RowMatch.Statement (.addRegImm16 r imm) :=
  (withIndex_block _ r).trans rfl

theorem RowMatch.subRegReg (r : Nibble) (operand : Byte) : RowMatch.Statement (.subRegReg r operand) :=
  (withIndex_block _ r).trans rfl

theorem RowMatch.subRegImm16 (r : Nibble) (imm : Word) : RowMatch.Statement (.subRegImm16 r imm) :=
  (withIndex_block _ r).trans rfl

theorem RowMatch.shlRegImm8 (r : Nibble) (imm : Byte) : RowMatch.Statement (.shlRegImm8 r imm) :=
  (withIndex_block _ r).trans rfl

theorem RowMatch.jmp (slot : BitVec 3) (low : Nibble) (target : Word) : RowMatch.Statement (.jmp slot low target) :=
  (oneOperandWord_group _ slot low).trans rfl

theorem RowMatch.jz (slot : BitVec 3) (low : Nibble) (target : Word) : RowMatch.Statement (.jz slot low target) :=
  (oneOperandWord_group _ slot low).trans rfl

theorem RowMatch.jnz (slot : BitVec 3) (low : Nibble) (target : Word) : RowMatch.Statement (.jnz slot low target) :=
  (oneOperandWord_group _ slot low).trans rfl

theorem RowMatch.illegal (word : Word) : RowMatch.Statement (.illegal word) := by
  simp [RowMatch.Statement, rowFixed]

end Sys2Proof.Laws
end

