-- ==== Sys2Proof/Laws/Rom.lean ====
section
/-! SUPPORT. The blocks of the example ROM: there are fifteen procedures and no other, and each begins with FETCH. -/

namespace Sys2Proof.Machine

/-- The procedures of R153 to R169. -/
def exampleProcedures : List (List ControlBits) :=
  [[cwFetch, cwRtn], [cwFetch, cwHlt], [cwFetch, cwRdwR1, cwRtn], [cwFetch, cwRdbR1, cwRtn],
    [cwFetch, cwRdbOi, cwMovR2R1, cwRtn], [cwFetch, cwRdwT0, cwRdwT1, cwWrT1AtT0Segi, cwRtn],
    [cwFetch, cwRdbOi, cwR2ToT0, cwRdAtT0SegoR1, cwRtn], [cwFetch, cwRdbOi, cwR2ToT0, cwRdbzAtT0SegoR1, cwRtn],
    [cwFetch, cwRdbOi, cwAddR1R2, cwRtn], [cwFetch, cwRdwT1, cwAddR1T1, cwRtn],
    [cwFetch, cwRdbOi, cwSubR1R2, cwRtn], [cwFetch, cwRdwT1, cwSubR1T1, cwRtn], [cwFetch, cwRdbT1, cwShlR1T1, cwRtn],
    [cwFetch, cwJmpImm, cwRtn], [cwFetch, cwSkip2, cwRtn]]

/-- Every block holds one of them. -/
theorem exampleBlock_mem (b : Word) : exampleBlock b ∈ exampleProcedures := by
  have choose : ∀ (c : Prop) [Decidable c] (x y : List ControlBits), x ∈ exampleProcedures → y ∈ exampleProcedures →
      (if c then x else y) ∈ exampleProcedures := fun c _ x y hx hy => by
    split
    · exact hx
    · exact hy
  unfold exampleBlock
  repeat' first | decide | apply choose

/-- What holds of the words of every procedure at a place holds of the example ROM. -/
theorem exampleRom_of_procedures {p : Nat → ControlBits → Bool} (k : Nat)
    (h : (exampleProcedures.all fun l => p k (l[k]?.getD 0)) = true) (a : Word) (ha : (a &&& 0xF).toNat = k) :
    p k (exampleRom a) = true := by
  unfold exampleRom
  rw [ha]
  exact List.all_eq_true.mp h _ (exampleBlock_mem _)

end Sys2Proof.Machine
end

