-- ==== Sys2Proof/Laws/Tick.lean ====
section
/-! SUPPORT. What a tick of a control word does, once and in full: an instruction of the first kind is the tick of its control word;
a tick has four outcomes and no other; and what the phases of a valid word write, component by component. -/

namespace Sys2Proof.Machine

/-! ### The outcomes of a tick -/

/-- An instruction of the first kind is the tick of its control word. -/
theorem exec_of_controlWord {i : Instr} {cw : ControlWord} (h : i.controlWord? = some cw) (s : State) :
    exec i s = runWord cw s := by
  cases i <;> simp only [Instr.controlWord?, Option.some.injEq, reduceCtorEq] at h <;> subst h <;> rfl

/-- Outside Fetching nothing happens (R80). -/
theorem tickWord_stopped {s : State} (cw : ControlWord) (h : s.run ≠ .fetching) : tickWord cw s = s := by
  simp [tickWord, h]

/-- `RTN` (R81). -/
theorem tickWord_rtn {cw : ControlWord} {s : State} (h : s.run = .fetching) (hr : cw.ipc = .rtn) :
    tickWord cw s = { s with stepCtr := 0 } := by
  simp [tickWord, h, hr]

/-- A fault (R78, R175). -/
theorem tickWord_fault {cw : ControlWord} {s : State} {f : FaultReason} (h : s.run = .fetching) (hr : cw.ipc ≠ .rtn)
    (hv : validate cw s = some f) : tickWord cw s = raise f s := by
  simp [tickWord, h, hr, hv]

/-- A valid word runs its phases (R75). -/
theorem tickWord_valid {cw : ControlWord} {s : State} (h : s.run = .fetching) (hr : cw.ipc ≠ .rtn)
    (hv : validate cw s = none) : tickWord cw s = performWord cw s := by
  simp [tickWord, h, hr, hv]

/-- The four outcomes of a tick, and no other. -/
theorem tickWord_cases (cw : ControlWord) (s : State) :
    (s.run ≠ .fetching ∧ tickWord cw s = s) ∨
    (s.run = .fetching ∧ cw.ipc = .rtn ∧ tickWord cw s = { s with stepCtr := 0 }) ∨
    (s.run = .fetching ∧ cw.ipc ≠ .rtn ∧ ∃ f, validate cw s = some f ∧ tickWord cw s = raise f s) ∨
    (s.run = .fetching ∧ cw.ipc ≠ .rtn ∧ validate cw s = none ∧ tickWord cw s = performWord cw s) := by
  by_cases h : s.run = .fetching
  · by_cases hr : cw.ipc = .rtn
    · exact .inr (.inl ⟨h, hr, tickWord_rtn h hr⟩)
    · cases hv : validate cw s with
      | some f => exact .inr (.inr (.inl ⟨h, hr, f, rfl, tickWord_fault h hr hv⟩))
      | none => exact .inr (.inr (.inr ⟨h, hr, rfl, tickWord_valid h hr hv⟩))
  · exact .inl ⟨h, tickWord_stopped cw h⟩

/-! ### What the phases write -/

/-- The data bus of a word (R135 to R138). -/
def dataOf (cw : ControlWord) (s : State) : Word := (memoryPhase cw s (aluPhase cw s).d).1

@[simp] theorem regRead_eq {s : State} {i : Nibble} {r : Reg} (h : Reg.ofIndex i = some r) (wid : WidCode) :
    regRead s i wid = widthRead wid (s.getReg r) := by
  simp [regRead, h]

theorem regWrite_eq {u : State} {i : Nibble} {r : Reg} (h : Reg.ofIndex i = some r) (wid : WidCode) (d : Word) :
    regWrite u i wid d = u.setReg r (widthWrite wid (u.getReg r) d) := by
  simp [regWrite, h]

/-- An index has a register exactly if it is below 8 (R24). -/
theorem ofIndex_isSome (i : Nibble) : (Reg.ofIndex i).isSome = decide (i.toNat < 8) := by
  revert i; decide

theorem ofIndex_none {i : Nibble} (h : 8 ≤ i.toNat) : Reg.ofIndex i = none := by
  revert i; decide

theorem ofIndex_some {i : Nibble} {r : Reg} (h : Reg.ofIndex i = some r) : i.toNat < 8 := by
  have := ofIndex_isSome i
  rw [h] at this
  simpa using this.symm

/-- No two indices name one register. -/
theorem ofIndex_inj {i j : Nibble} {r : Reg} (hi : Reg.ofIndex i = some r) (hj : Reg.ofIndex j = some r) : i = j := by
  revert i j
  cases r <;> decide

@[simp] theorem getReg_latchPhase (lat : LatCode) (s : State) (d : Word) (u : State) (r : Reg) :
    (latchPhase lat s d u).getReg r = u.getReg r := by
  cases r <;> simp [State.getReg]

@[simp] theorem getReg_flagPhase (op : AluCode) (out : AluOut) (u : State) (r : Reg) :
    (flagPhase op out u).getReg r = u.getReg r := by
  cases r <;> simp [State.getReg]

/-- A register after the destination's write (R142 to R148). -/
theorem getReg_destPhase (dst : DstCode) (wid : WidCode) (s : State) (d : Word) (u : State) (r : Reg) :
    (destPhase dst wid s d u).getReg r =
      if (dst = .r1 ∧ Reg.ofIndex s.index1 = some r) ∨ (dst = .r2 ∧ Reg.ofIndex s.index2 = some r) then
        widthWrite wid (u.getReg r) d
      else if dst = .sp ∧ r = .sp then d else u.getReg r := by
  cases dst <;> simp only [destPhase, reduceCtorEq, false_and, true_and, false_or, or_false, if_false]
  case r1 =>
    cases h : Reg.ofIndex s.index1 with
    | none => simp [regWrite, h]
    | some q =>
      rw [regWrite_eq h, setReg_getReg]
      by_cases e : r = q
      · simp [e]
      · simp [e, Ne.symm e]
  case r2 =>
    cases h : Reg.ofIndex s.index2 with
    | none => simp [regWrite, h]
    | some q =>
      rw [regWrite_eq h, setReg_getReg]
      by_cases e : r = q
      · simp [e]
      · simp [e, Ne.symm e]
  case sp => cases r <;> simp [State.getReg]
  all_goals cases r <;> rfl

@[simp] theorem latchPhase_iw (lat : LatCode) (s : State) (d : Word) (u : State) :
    (latchPhase lat s d u).iw = if lat = .ii then mergeFlags s d else u.iw := by
  cases lat <;> rfl

@[simp] theorem latchPhase_ow (lat : LatCode) (s : State) (d : Word) (u : State) :
    (latchPhase lat s d u).ow = if lat = .oi then d else u.ow := by
  cases lat <;> rfl

@[simp] theorem destPhase_t0 (dst : DstCode) (wid : WidCode) (s : State) (d : Word) (u : State) :
    (destPhase dst wid s d u).t0 = if dst = .t0 then d else u.t0 := by
  cases dst <;> simp [destPhase]

@[simp] theorem destPhase_t1 (dst : DstCode) (wid : WidCode) (s : State) (d : Word) (u : State) :
    (destPhase dst wid s d u).t1 = if dst = .t1 then d else u.t1 := by
  cases dst <;> simp [destPhase]

@[simp] theorem destPhase_ie (dst : DstCode) (wid : WidCode) (s : State) (d : Word) (u : State) :
    (destPhase dst wid s d u).ie = if dst = .ie then decide (d.toNat % 2 = 1) else u.ie := by
  have h : d.getLsbD 0 = decide (d.toNat % 2 = 1) := by simp [BitVec.getLsbD, Nat.testBit_eq_decide_div_mod_eq]
  cases dst <;> simp only [destPhase, h, reduceCtorEq, if_true, if_false, regWrite_ie]

@[simp] theorem flagPhase_zf (op : AluCode) (out : AluOut) (u : State) :
    (flagPhase op out u).zf = if op = .none then u.zf else out.z := by
  cases op <;> rfl

@[simp] theorem flagPhase_cf (op : AluCode) (out : AluOut) (u : State) :
    (flagPhase op out u).cf = if op = .none then u.cf else out.c := by
  cases op <;> rfl

@[simp] theorem flagPhase_sf (op : AluCode) (out : AluOut) (u : State) :
    (flagPhase op out u).sf = if op = .none then u.sf else out.s := by
  cases op <;> rfl

section
variable (cw : ControlWord) (s : State)

@[simp] theorem performWord_iw : (performWord cw s).iw = if cw.lat = .ii then mergeFlags s (dataOf cw s) else s.iw := by
  simp [performWord, dataOf]

@[simp] theorem performWord_ow : (performWord cw s).ow = if cw.lat = .oi then dataOf cw s else s.ow := by
  simp [performWord, dataOf]

@[simp] theorem performWord_t0 : (performWord cw s).t0 = if cw.dst = .t0 then dataOf cw s else s.t0 := by
  simp [performWord, dataOf]

@[simp] theorem performWord_t1 : (performWord cw s).t1 = if cw.dst = .t1 then dataOf cw s else s.t1 := by
  simp [performWord, dataOf]

@[simp] theorem performWord_ie : (performWord cw s).ie =
    if cw.dst = .ie then decide ((dataOf cw s).toNat % 2 = 1) else s.ie := by
  unfold performWord dataOf
  dsimp only
  rw [flagPhase_ie, destPhase_ie, latchPhase_ie]

@[simp] theorem performWord_zf : (performWord cw s).zf = if cw.alu = .none then s.zf else (aluPhase cw s).z := by
  simp [performWord]

@[simp] theorem performWord_cf : (performWord cw s).cf = if cw.alu = .none then s.cf else (aluPhase cw s).c := by
  simp [performWord]

@[simp] theorem performWord_sf : (performWord cw s).sf = if cw.alu = .none then s.sf else (aluPhase cw s).s := by
  simp [performWord]

@[simp] theorem performWord_ip : (performWord cw s).ip = ipControl cw.ipc (dataOf cw s) s.ip := rfl

@[simp] theorem performWord_stepCtr : (performWord cw s).stepCtr = nextStep cw s := rfl

@[simp] theorem performWord_run : (performWord cw s).run = haltControl cw.ipc s.run := rfl

@[simp] theorem performWord_mem : (performWord cw s).mem = (memoryPhase cw s (aluPhase cw s).d).2 := by
  simp [performWord]

@[simp] theorem performWord_rom : (performWord cw s).rom = s.rom := by
  simp [performWord]

@[simp] theorem performWord_grain : (performWord cw s).grain = s.grain := by
  simp [performWord]

/-- A register after the phases. -/
theorem performWord_getReg (r : Reg) : (performWord cw s).getReg r =
    if (cw.dst = .r1 ∧ Reg.ofIndex s.index1 = some r) ∨ (cw.dst = .r2 ∧ Reg.ofIndex s.index2 = some r) then
      widthWrite cw.wid (s.getReg r) (dataOf cw s)
    else if cw.dst = .sp ∧ r = .sp then dataOf cw s else s.getReg r := by
  let u := destPhase cw.dst cw.wid s (dataOf cw s)
    (latchPhase cw.lat s (dataOf cw s) { s with mem := (memoryPhase cw s (aluPhase cw s).d).2 })
  have h : (performWord cw s).getReg r = u.getReg r := by
    rw [← getReg_flagPhase cw.alu (aluPhase cw s) u]
    cases r <;> rfl
  have g : ∀ m : Memory, ({ s with mem := m } : State).getReg r = s.getReg r := fun m => by cases r <;> rfl
  rw [h, getReg_destPhase, getReg_latchPhase, g]

end

/-- Memory after the memory phase is memory before it, after one read, or after one write. -/
theorem memoryPhase_mem (cw : ControlWord) (s : State) (d : Word) :
    (memoryPhase cw s d).2 = s.mem ∨
    (∃ off, (memoryPhase cw s d).2 = (s.mem.read cw.wid (segValue cw.seg s) off).2) ∨
    (cw.mem = .wrt ∧ (memoryPhase cw s d).2 = s.mem.write cw.wid (segValue cw.seg s) s.t0 d) := by
  unfold memoryPhase
  cases h : cw.mem
  · exact .inl rfl
  · exact .inr (.inl ⟨s.ip, rfl⟩)
  · exact .inr (.inl ⟨s.t0, rfl⟩)
  · exact .inr (.inr ⟨rfl, rfl⟩)

/-! ### Numbers -/

/-- IW[3:0] as a number. -/
theorem index1_toNat (s : State) : s.index1.toNat = s.iw.toNat % 16 := by
  simp [State.index1]

/-- OW[3:0] as a number. -/
theorem index2_toNat (s : State) : s.index2.toNat = s.ow.toNat % 16 := by
  simp [State.index2]

/-- OW[7:4] as a number. -/
theorem segIndex2_toNat (s : State) : s.segIndex2.toNat = s.ow.toNat / 16 % 16 := by
  simp [State.segIndex2, Nat.shiftRight_eq_div_pow]

/-- The low byte as a number. -/
theorem and_low_toNat (v : Word) : (v &&& (0x00FF : Word)).toNat = v.toNat % 256 := by
  have h : v &&& (0x00FF : Word) = (v.setWidth 8).setWidth 16 := by
    ext i hi
    interval_cases i <;> simp
  rw [h]
  simp
  omega

/-- What a width code reads of a register, in numbers (R25). -/
theorem widthRead_toNat (wid : WidCode) (v : Word) :
    (widthRead wid v).toNat =
      match wid with
      | .word => v.toNat
      | .byte => v.toNat % 256
      | .byteh => v.toNat / 256
      | .bytez => v.toNat % 256 := by
  cases wid
  · rfl
  · exact and_low_toNat v
  · simp [widthRead, Nat.shiftRight_eq_div_pow]
  · exact and_low_toNat v

/-- A register after a write at a width code, in numbers (R26). -/
theorem widthWrite_toNat (wid : WidCode) (old d : Word) :
    (widthWrite wid old d).toNat =
      match wid with
      | .word => d.toNat
      | .byte => old.toNat / 256 * 256 + d.toNat % 256
      | .byteh => d.toNat % 256 * 256 + old.toNat % 256
      | .bytez => d.toNat % 256 := by
  cases wid
  · rfl
  · have h : widthWrite .byte old d = (old >>> 8) <<< 8 + (d.setWidth 8).setWidth 16 := by
      rw [BitVec.add_eq_or_of_and_eq_zero]
      · ext i hi
        interval_cases i <;> simp [widthWrite]
      · ext i hi
        interval_cases i <;> simp
    have := old.isLt
    rw [h]
    simp [Nat.shiftRight_eq_div_pow, Nat.shiftLeft_eq]
    omega
  · have h : widthWrite .byteh old d = d <<< 8 + (old.setWidth 8).setWidth 16 := by
      rw [BitVec.add_eq_or_of_and_eq_zero]
      · ext i hi
        interval_cases i <;> simp [widthWrite]
      · ext i hi
        interval_cases i <;> simp
    have := d.isLt
    rw [h]
    simp [Nat.shiftLeft_eq]
    omega
  · exact and_low_toNat d

/-- The index fault in full (R25, R174). -/
theorem indexFault_cases (i : Nibble) (wid : WidCode) :
    (8 ≤ i.toNat ∧ indexFault i wid = some .badRegIndex) ∨
    (4 ≤ i.toNat ∧ i.toNat < 8 ∧ wid ≠ .word ∧ indexFault i wid = some .byteOfWordReg) ∨
    ((i.toNat < 4 ∨ i.toNat < 8 ∧ wid = .word) ∧ indexFault i wid = none) := by
  unfold indexFault
  by_cases h8 : 8 ≤ i.toNat
  · simp [h8]
  · by_cases h4 : 4 ≤ i.toNat ∧ wid ≠ .word
    · simp only [h8, if_false, if_pos h4]
      exact .inr (.inl ⟨h4.1, by omega, h4.2, trivial⟩)
    · simp only [h8, if_false, if_neg h4]
      refine .inr (.inr ⟨?_, trivial⟩)
      by_cases h : i.toNat < 4
      · exact .inl h
      · exact .inr ⟨by omega, by_contra fun hw => h4 ⟨by omega, hw⟩⟩

/-! ### The macro-instructions -/

/-- A macro-instruction answers a next state, the given one in Fetching (R80). -/
theorem whenFetching_run {s : State} (h : s.run = .fetching) (t : State) : whenFetching s t = .next t := by
  simp [whenFetching, h]

theorem whenFetching_stopped {s : State} (h : s.run ≠ .fetching) (t : State) : whenFetching s t = .next s := by
  simp [whenFetching, h]

end Sys2Proof.Machine
end

