-- ==== Sys2Proof/Laws/Run.lean ====
section
/-! SUPPORT. What an engine tick and a run with a budget do: a tick is the tick of the control word at the dispatch address, a run of
`n + m` ticks that is still Fetching after `n` is the run of the `m` that follow. -/

namespace Sys2Proof.Machine

/-- The reading of a control word under a field carries the word. -/
theorem readAs_controlWord (f : Field) (cw : ControlWord) : (readAs f cw).controlWord? = some cw := by
  obtain ⟨ipc, lat, ba, bb, alu, dst, wid, seg, mem, jump, target⟩ := cw
  cases f <;> simp only [readAs]
  case ipc => cases ipc <;> rfl
  case lat => cases lat <;> rfl
  case ba => cases ba <;> rfl
  case bb => cases bb <;> rfl
  case alu => cases alu <;> rfl
  case dst => cases dst <;> rfl
  case wid => cases wid <;> rfl
  case seg => cases seg <;> rfl
  case mem => cases mem <;> rfl
  case cjc =>
    split
    · rename_i h
      simp [Instr.controlWord?, ControlWord.forceOutOfRange, h]
    · cases jump <;> rfl

/-- An engine tick always answers: it is the tick of the control word at the dispatch address (R75, R76). -/
theorem engineTick_eq (s : State) : engineTick s = .next (tickWord (decodeControl (currentWord s)) s) :=
  exec_of_controlWord (readAs_controlWord _ _) s

/-! ### The end of a run -/

/-- Only an engine that is Fetching has not ended. -/
@[simp] theorem ownEnd_eq_none {s : State} : s.ownEnd = none ↔ s.run = .fetching := by
  unfold State.ownEnd
  cases s.run <;> simp

@[simp] theorem runTicks_zero (s : State) :
    runTicks 0 s = .next { ending := s.ownEnd.getD .budgetExhausted, final := s } := rfl

/-- An engine that has ended is ticked no more. -/
theorem runTicks_ended {s : State} {e : RunEnd} (h : s.ownEnd = some e) (fuel : Nat) :
    runTicks fuel s = .next { ending := e, final := s } := by
  cases fuel <;> simp [runTicks, h]

/-- An engine that is Fetching spends one tick of the budget. -/
theorem runTicks_succ {s : State} (h : s.run = .fetching) (fuel : Nat) :
    runTicks (fuel + 1) s = runTicks fuel (tickWord (decodeControl (currentWord s)) s) := by
  simp [runTicks, ownEnd_eq_none.mpr h, engineTick_eq]

/-- One more tick. -/
theorem ticks_succ (n : Nat) (s : State) : ticks (n + 1) s = ticks n (tickWord (decodeControl (currentWord s)) s) := by
  simp [ticks, engineTick_eq]

/-- An engine that is Fetching after some ticks was so before them. -/
theorem fetching_of_ticks {n : Nat} {s t : State} (h : ticks n s = .next t) (ht : t.run = .fetching) :
    s.run = .fetching := by
  induction n generalizing s with
  | zero => cases h; exact ht
  | succ n ih =>
    rw [ticks_succ] at h
    by_contra hs
    exact hs (tickWord_stopped _ hs ▸ ih h)

/-- A run may be cut wherever the engine is still Fetching. -/
theorem runTicks_add {n : Nat} {s t : State} (h : ticks n s = .next t) (ht : t.run = .fetching) (m : Nat) :
    runTicks (n + m) s = runTicks m t := by
  induction n generalizing s with
  | zero => cases h; rw [Nat.zero_add]
  | succ n ih =>
    have hs := fetching_of_ticks h ht
    rw [ticks_succ] at h
    rw [Nat.add_right_comm, runTicks_succ hs, ih h]

/-- A program that comes back to its state after `n` ticks runs through any number of passes. -/
theorem runTicks_loop {n : Nat} {s : State} (h : ticks n s = .next s) (hs : s.run = .fetching) (passes : Nat) :
    runTicks (n * passes) s = .next { ending := .budgetExhausted, final := s } := by
  induction passes with
  | zero => simp [ownEnd_eq_none.mpr hs]
  | succ k ih => rw [Nat.mul_succ, Nat.add_comm, runTicks_add h hs, ih]

end Sys2Proof.Machine
end

