-- ==== Sys2Proof/Tests/Slice0.lean ====
section
/-! SUPPORT. Small tests. `test_<id>` is the vector of that name in spec/95_test_vectors.md; the decoding tests are words written out from
the tables of 30_encoding.md and the examples of 44_macro_instructions.md; `witness_<Name>` shows values that meet the hypotheses of
the obligation of that name, each clause of them at a boundary. -/

namespace Sys2Proof.Tests

open Sys2Proof Sys2Proof.Machine Sys2Proof.Claims

/-- The next state of an outcome. -/
def nextOf (o : Host.Outcome State Fault Refusal) : Option State :=
  match o with
  | .next t => some t
  | .fault _ => none
  | .refused _ => none

/-- One tick of a control word takes `s` to `t`. -/
abbrev tick (w : ControlBits) (s t : State) : Prop := nextOf (exec (decode w) s) = some t

/-- One step takes `s` to `t`. -/
abbrev stepsTo (s t : State) : Prop := nextOf (step s) = some t

/-! ### Well-formedness -/

/-- The rows of IPC refuse a word with another code in the field. -/
theorem test_wellFormed_ipc :
    (Instr.ipcNone { ipc := .jmp }).wellFormed = false ∧
      (Instr.ipcIpc1 {}).wellFormed = false ∧
      (Instr.ipcIpc2 {}).wellFormed = false ∧
      (Instr.ipcIpc4 {}).wellFormed = false ∧
      (Instr.ipcJmp {}).wellFormed = false ∧
      (Instr.ipcHlt {}).wellFormed = false ∧
      (Instr.ipcRtn {}).wellFormed = false ∧
      (Instr.ipcReserved7 {}).wellFormed = false := by decide

/-- The rows of LAT refuse a word with another code in the field. -/
theorem test_wellFormed_lat :
    (Instr.latNone { lat := .oi }).wellFormed = false ∧
      (Instr.latIi {}).wellFormed = false ∧
      (Instr.latOi {}).wellFormed = false ∧
      (Instr.latReserved3 {}).wellFormed = false := by decide

/-- The rows of BA refuse a word with another code in the field. -/
theorem test_wellFormed_ba :
    (Instr.baNone { ba := .sp }).wellFormed = false ∧
      (Instr.baR1 {}).wellFormed = false ∧
      (Instr.baT0 {}).wellFormed = false ∧
      (Instr.baT1 {}).wellFormed = false ∧
      (Instr.baSp {}).wellFormed = false ∧
      (Instr.baIe {}).wellFormed = false ∧
      (Instr.baReserved6 {}).wellFormed = false ∧
      (Instr.baReserved7 {}).wellFormed = false := by decide

/-- The rows of BB refuse a word with another code in the field. -/
theorem test_wellFormed_bb :
    (Instr.bbNone { bb := .k1 }).wellFormed = false ∧
      (Instr.bbR2 {}).wellFormed = false ∧
      (Instr.bbT0 {}).wellFormed = false ∧
      (Instr.bbT1 {}).wellFormed = false ∧
      (Instr.bbK1 {}).wellFormed = false ∧
      (Instr.bbK2 {}).wellFormed = false ∧
      (Instr.bbK4 {}).wellFormed = false ∧
      (Instr.bbK8 {}).wellFormed = false := by decide

/-- The rows of ALU refuse a word with another code in the field. -/
theorem test_wellFormed_alu :
    (Instr.aluNone { alu := .xor }).wellFormed = false ∧
      (Instr.aluAdd {}).wellFormed = false ∧
      (Instr.aluSub {}).wellFormed = false ∧
      (Instr.aluOr {}).wellFormed = false ∧
      (Instr.aluXor {}).wellFormed = false ∧
      (Instr.aluAnd {}).wellFormed = false ∧
      (Instr.aluShl {}).wellFormed = false ∧
      (Instr.aluShr {}).wellFormed = false := by decide

/-- The rows of DST refuse a word with another code in the field. -/
theorem test_wellFormed_dst :
    (Instr.dstNone { dst := .sp }).wellFormed = false ∧
      (Instr.dstR1 {}).wellFormed = false ∧
      (Instr.dstR2 {}).wellFormed = false ∧
      (Instr.dstT0 {}).wellFormed = false ∧
      (Instr.dstT1 {}).wellFormed = false ∧
      (Instr.dstSp {}).wellFormed = false ∧
      (Instr.dstIe {}).wellFormed = false ∧
      (Instr.dstReserved7 {}).wellFormed = false := by decide

/-- The rows of WID refuse a word with another code in the field. -/
theorem test_wellFormed_wid :
    (Instr.widWord { wid := .byteh }).wellFormed = false ∧
      (Instr.widByte {}).wellFormed = false ∧
      (Instr.widByteh {}).wellFormed = false ∧
      (Instr.widBytez {}).wellFormed = false := by decide

/-- The rows of SEG refuse a word with another code in the field. -/
theorem test_wellFormed_seg :
    (Instr.segNone { seg := .ss }).wellFormed = false ∧
      (Instr.segCs {}).wellFormed = false ∧
      (Instr.segSs {}).wellFormed = false ∧
      (Instr.segSegi {}).wellFormed = false ∧
      (Instr.segSego {}).wellFormed = false ∧
      (Instr.segInt {}).wellFormed = false ∧
      (Instr.segReserved6 {}).wellFormed = false ∧
      (Instr.segReserved7 {}).wellFormed = false := by decide

/-- The rows of MEM refuse a word with another code in the field. -/
theorem test_wellFormed_mem :
    (Instr.memNone { mem := .rdt }).wellFormed = false ∧
      (Instr.memRdip {}).wellFormed = false ∧
      (Instr.memRdt {}).wellFormed = false ∧
      (Instr.memWrt {}).wellFormed = false := by decide

/-- The rows of CJC refuse a word with another code in the field, and an illegal or a legal target where theirs is the other. -/
theorem test_wellFormed_cjc :
    (Instr.cjcNone { cjc := .cjc }).wellFormed = false ∧
      (Instr.cjcCjz {}).wellFormed = false ∧
      (Instr.cjcCjz { cjc := .cjz, cjt := 16 }).wellFormed = false ∧
      (Instr.cjcCjc {}).wellFormed = false ∧
      (Instr.cjcCjc { cjc := .cjc, cjt := 16 }).wellFormed = false ∧
      (Instr.cjcCjs {}).wellFormed = false ∧
      (Instr.cjcCjs { cjc := .cjs, cjt := 16 }).wellFormed = false ∧
      (Instr.cjtRange { cjc := .cjz, cjt := 15 }).wellFormed = false ∧
      (Instr.cjtRange { cjt := 63 }).wellFormed = false := by decide

/-- ILLEGAL refuses the words for which a procedure is declared. -/
theorem test_wellFormed_illegal :
    (Instr.illegal 0x0000).wellFormed = false ∧ (Instr.illegal 0x08BF).wellFormed = false ∧ (Instr.illegal 0x99FF).wellFormed = false ∧
      (Instr.illegal 0x0C80).wellFormed = true := by decide

/-! ### Decoding -/

/-- R53: the words with one code of IPC alone, from bit 0 on. -/
theorem test_decode_ipc :
    decodeIn .ipc 0x00000000 = .ipcNone {} ∧
      decodeIn .ipc 0x00000001 = .ipcIpc1 { ipc := .ipc1 } ∧
      decodeIn .ipc 0x00000002 = .ipcIpc2 { ipc := .ipc2 } ∧
      decodeIn .ipc 0x00000003 = .ipcIpc4 { ipc := .ipc4 } ∧
      decodeIn .ipc 0x00000004 = .ipcJmp { ipc := .jmp } ∧
      decodeIn .ipc 0x00000005 = .ipcHlt { ipc := .hlt } ∧
      decodeIn .ipc 0x00000006 = .ipcRtn { ipc := .rtn } ∧
      decodeIn .ipc 0x00000007 = .ipcReserved7 { ipc := .reserved7 } := by decide

/-- R54: the words with one code of LAT alone, from bit 3 on. -/
theorem test_decode_lat :
    decodeIn .lat 0x00000000 = .latNone {} ∧
      decodeIn .lat 0x00000008 = .latIi { lat := .ii } ∧
      decodeIn .lat 0x00000010 = .latOi { lat := .oi } ∧
      decodeIn .lat 0x00000018 = .latReserved3 { lat := .reserved3 } := by decide

/-- R55: the words with one code of BA alone, from bit 5 on. -/
theorem test_decode_ba :
    decodeIn .ba 0x00000000 = .baNone {} ∧
      decodeIn .ba 0x00000020 = .baR1 { ba := .r1 } ∧
      decodeIn .ba 0x00000040 = .baT0 { ba := .t0 } ∧
      decodeIn .ba 0x00000060 = .baT1 { ba := .t1 } ∧
      decodeIn .ba 0x00000080 = .baSp { ba := .sp } ∧
      decodeIn .ba 0x000000A0 = .baIe { ba := .ie } ∧
      decodeIn .ba 0x000000C0 = .baReserved6 { ba := .reserved6 } ∧
      decodeIn .ba 0x000000E0 = .baReserved7 { ba := .reserved7 } := by decide

/-- R56: the words with one code of BB alone, from bit 8 on. -/
theorem test_decode_bb :
    decodeIn .bb 0x00000000 = .bbNone {} ∧
      decodeIn .bb 0x00000100 = .bbR2 { bb := .r2 } ∧
      decodeIn .bb 0x00000200 = .bbT0 { bb := .t0 } ∧
      decodeIn .bb 0x00000300 = .bbT1 { bb := .t1 } ∧
      decodeIn .bb 0x00000400 = .bbK1 { bb := .k1 } ∧
      decodeIn .bb 0x00000500 = .bbK2 { bb := .k2 } ∧
      decodeIn .bb 0x00000600 = .bbK4 { bb := .k4 } ∧
      decodeIn .bb 0x00000700 = .bbK8 { bb := .k8 } := by decide

/-- R57: the words with one code of ALU alone, from bit 11 on. -/
theorem test_decode_alu :
    decodeIn .alu 0x00000000 = .aluNone {} ∧
      decodeIn .alu 0x00000800 = .aluAdd { alu := .add } ∧
      decodeIn .alu 0x00001000 = .aluSub { alu := .sub } ∧
      decodeIn .alu 0x00001800 = .aluOr { alu := .or } ∧
      decodeIn .alu 0x00002000 = .aluXor { alu := .xor } ∧
      decodeIn .alu 0x00002800 = .aluAnd { alu := .and } ∧
      decodeIn .alu 0x00003000 = .aluShl { alu := .shl } ∧
      decodeIn .alu 0x00003800 = .aluShr { alu := .shr } := by decide

/-- R58: the words with one code of DST alone, from bit 14 on. -/
theorem test_decode_dst :
    decodeIn .dst 0x00000000 = .dstNone {} ∧
      decodeIn .dst 0x00004000 = .dstR1 { dst := .r1 } ∧
      decodeIn .dst 0x00008000 = .dstR2 { dst := .r2 } ∧
      decodeIn .dst 0x0000C000 = .dstT0 { dst := .t0 } ∧
      decodeIn .dst 0x00010000 = .dstT1 { dst := .t1 } ∧
      decodeIn .dst 0x00014000 = .dstSp { dst := .sp } ∧
      decodeIn .dst 0x00018000 = .dstIe { dst := .ie } ∧
      decodeIn .dst 0x0001C000 = .dstReserved7 { dst := .reserved7 } := by decide

/-- R59: the words with one code of WID alone, from bit 17 on. -/
theorem test_decode_wid :
    decodeIn .wid 0x00000000 = .widWord {} ∧
      decodeIn .wid 0x00020000 = .widByte { wid := .byte } ∧
      decodeIn .wid 0x00040000 = .widByteh { wid := .byteh } ∧
      decodeIn .wid 0x00060000 = .widBytez { wid := .bytez } := by decide

/-- R60: the words with one code of SEG alone, from bit 19 on. -/
theorem test_decode_seg :
    decodeIn .seg 0x00000000 = .segNone {} ∧
      decodeIn .seg 0x00080000 = .segCs { seg := .cs } ∧
      decodeIn .seg 0x00100000 = .segSs { seg := .ss } ∧
      decodeIn .seg 0x00180000 = .segSegi { seg := .segi } ∧
      decodeIn .seg 0x00200000 = .segSego { seg := .sego } ∧
      decodeIn .seg 0x00280000 = .segInt { seg := .int } ∧
      decodeIn .seg 0x00300000 = .segReserved6 { seg := .reserved6 } ∧
      decodeIn .seg 0x00380000 = .segReserved7 { seg := .reserved7 } := by decide

/-- R61: the words with one code of MEM alone, from bit 22 on. -/
theorem test_decode_mem :
    decodeIn .mem 0x00000000 = .memNone {} ∧
      decodeIn .mem 0x00400000 = .memRdip { mem := .rdip } ∧
      decodeIn .mem 0x00800000 = .memRdt { mem := .rdt } ∧
      decodeIn .mem 0x00C00000 = .memWrt { mem := .wrt } := by decide

/-- R62: the words with one code of CJC alone, from bit 24 on. -/
theorem test_decode_cjc :
    decodeIn .cjc 0x00000000 = .cjcNone {} ∧
      decodeIn .cjc 0x01000000 = .cjcCjz { cjc := .cjz } ∧
      decodeIn .cjc 0x02000000 = .cjcCjc { cjc := .cjc } ∧
      decodeIn .cjc 0x03000000 = .cjcCjs { cjc := .cjs } ∧
      decodeIn .cjc 0x43000000 = .cjtRange { cjc := .cjs, cjt := 16 } := by decide

/-- R153 to R169: the bytes of each rule's example, with one byte after them. -/
theorem test_decode_instruction_words :
    decodeInstr [0x00, 0x00, 0xAA] = .ok (.nop 0, [0xAA]) ∧
      decodeInstr [0x04, 0x00, 0xAA] = .ok (.hlt 0, [0xAA]) ∧
      decodeInstr [0x08, 0xB2, 0xBE, 0xEF, 0xAA] = .ok (.movRegImm16 2 0xBEEF, [0xAA]) ∧
      decodeInstr [0x08, 0xA3, 0x7F, 0xAA] = .ok (.movRegImm8 3 0x7F, [0xAA]) ∧
      decodeInstr [0x08, 0x94, 0x00, 0xAA] = .ok (.movRegReg 4 0x00, [0xAA]) ∧
      decodeInstr [0x0A, 0x37, 0x00, 0x80, 0x12, 0x34, 0xAA] = .ok (.movMemImm 7 0x0080 0x1234, [0xAA]) ∧
      decodeInstr [0x08, 0xD1, 0x70, 0xAA] = .ok (.movRegMemw 1 0x70, [0xAA]) ∧
      decodeInstr [0x08, 0xF2, 0x71, 0xAA] = .ok (.movRegMemb 2 0x71, [0xAA]) ∧
      decodeInstr [0x0C, 0x90, 0x01, 0xAA] = .ok (.addRegReg 0 0x01, [0xAA]) ∧
      decodeInstr [0x0C, 0xB1, 0x00, 0x05, 0xAA] = .ok (.addRegImm16 1 0x0005, [0xAA]) ∧
      decodeInstr [0x10, 0x90, 0x01, 0xAA] = .ok (.subRegReg 0 0x01, [0xAA]) ∧
      decodeInstr [0x10, 0xB0, 0x00, 0x01, 0xAA] = .ok (.subRegImm16 0 0x0001, [0xAA]) ∧
      decodeInstr [0x20, 0xA2, 0x0C, 0xAA] = .ok (.shlRegImm8 2 0x0C, [0xAA]) ∧
      decodeInstr [0x95, 0x80, 0x12, 0x34, 0xAA] = .ok (.jmp 0 0 0x1234, [0xAA]) ∧
      decodeInstr [0x99, 0x80, 0x00, 0x10, 0xAA] = .ok (.jz 0 0 0x0010, [0xAA]) ∧
      decodeInstr [0x9D, 0x80, 0x00, 0x08, 0xAA] = .ok (.jnz 0 0 0x0008, [0xAA]) ∧
      decodeInstr [0xFF, 0xFF, 0xAA] = .ok (.illegal 0xFFFF, [0xAA]) := by
  and_intros <;> rfl

/-! ### Control words -/

/-- S1 (R64, R77): all-zero word (NOP word). -/
theorem test_S1 :
    tick 0x00000000 { stepCtr := 0 } { stepCtr := 1 } := by decide

/-- S3 (R81): RTN. -/
theorem test_S3 :
    tick 0x00000006 { stepCtr := 5, ip := 0x0010 } { stepCtr := 0, ip := 0x0010 } := by decide

/-- S4 (R81, R64): RTN with reserved LAT and DST codes. -/
theorem test_S4 :
    tick 0x0001C01E { stepCtr := 5 } { stepCtr := 0 } := by decide

/-- S6 (R83): IPC1 at IP=0xFFFF wraps. -/
theorem test_S6 :
    tick 0x00000001 { ip := 0xffff } { ip := 0x0000, stepCtr := 1 } := by decide

/-- S8 (R85): IPC4 at IP=0xFFFE wraps. -/
theorem test_S8 :
    tick 0x00000003 { ip := 0xfffe } { ip := 0x0002, stepCtr := 1 } := by decide

/-- S9 (R86): JMP from bus A = T0. -/
theorem test_S9 :
    tick 0x00000044 { t0 := 0x1234, ip := 0x0040 } { t0 := 0x1234, ip := 0x1234, stepCtr := 1 } := by decide

/-- S10 (R86, R136): JMP_IMM reads at old IP, then loads IP. -/
theorem test_S10 :
    tick 0x00480004
      { ip := 0x0010,
        mem := { cells := [(0x10, 0x12), (0x11, 0x34)] } }
      { ip := 0x1234, stepCtr := 1,
        mem := { cells := [(0x10, 0x12), (0x11, 0x34)] } } := by decide

/-- S11 (R87): HLT. -/
theorem test_S11 :
    tick 0x00000005 { stepCtr := 1, ip := 0x0002 } { stepCtr := 2, ip := 0x0002, run := .halted } := by decide

/-- S12 (R87): HLT word applies its other fields. -/
theorem test_S12 :
    tick 0x00010045 { t0 := 0x0007, stepCtr := 3 } { t0 := 0x0007, stepCtr := 4, t1 := 0x0007, run := .halted } := by decide

/-- S13 (R80): tick while Halted does nothing. -/
theorem test_S13 :
    tick 0x00000002 { run := .halted, stepCtr := 2 } { run := .halted, stepCtr := 2 } := by decide

/-- S15 (R90): CJZ taken (Z=1). -/
theorem test_S15 :
    tick 0x25000000 { stepCtr := 2, zf := true } { stepCtr := 9, zf := true } := by decide

/-- S17 (R91): CJC to step 0 from step 15. -/
theorem test_S17 :
    tick 0x02000000 { stepCtr := 15, cf := true } { stepCtr := 0, cf := true } := by decide

/-- S18 (R92): CJS to step 15. -/
theorem test_S18 :
    tick 0x3F000000 { stepCtr := 4, sf := true } { stepCtr := 15, sf := true } := by decide

/-- S19 (R89): CJ field NONE ignores CJT=63. -/
theorem test_S19 :
    tick 0xFC000000 { stepCtr := 2 } { stepCtr := 3 } := by decide

/-- S20 (R90, R198): CJZ with SUB in same word uses old Z. -/
theorem test_S20 :
    tick 0x1D001340
      { stepCtr := 2, t0 := 0x0003, t1 := 0x0003 }
      { stepCtr := 3, t0 := 0x0003, t1 := 0x0003, zf := true } := by decide

/-- S22 (R62, R173): CJZ target 16 faults whatever Z. -/
theorem test_S22 :
    tick 0x41000000 { stepCtr := 4 } { stepCtr := 4, run := .faulted .stepTargetRange } := by decide

/-- B1 (R99, R104): BA=R1 WORD, IW[3:0]=1. -/
theorem test_B1 :
    tick 0x0000C020 { iw := 0x0001, r1 := 0xabcd } { iw := 0x0001, r1 := 0xabcd, t0 := 0xabcd, stepCtr := 1 } := by decide

/-- B2 (R100, R104): BA=R1 BYTE (low half). -/
theorem test_B2 :
    tick 0x0002C020 { iw := 0x0001, r1 := 0xabcd } { iw := 0x0001, r1 := 0xabcd, t0 := 0x00cd, stepCtr := 1 } := by decide

/-- B6 (R25, R173): BA=R1 index 6 (CS) at BYTE faults. -/
theorem test_B6 :
    tick 0x0002C020 { iw := 0x0006 } { iw := 0x0006, run := .faulted .byteOfWordReg } := by decide

/-- B7 (R24, R173): BA=R1 index 12 faults. -/
theorem test_B7 :
    tick 0x0000C020 { iw := 0x000c } { iw := 0x000c, run := .faulted .badRegIndex } := by decide

/-- B8 (R105, R117): BA=T0 at BYTE truncates. -/
theorem test_B8 :
    tick 0x00030040 { t0 := 0xbeef } { t0 := 0xbeef, t1 := 0x00ef, stepCtr := 1 } := by decide

/-- B9 (R107, R117): BA=SP at BYTE truncates, no fault. -/
theorem test_B9 :
    tick 0x0002C080 { sp := 0x1234 } { sp := 0x1234, t0 := 0x0034, stepCtr := 1 } := by decide

/-- B10 (R108): BA=IE. -/
theorem test_B10 :
    tick 0x0000C0A0 { ie := true } { ie := true, t0 := 0x0001, stepCtr := 1 } := by decide

/-- B11 (R103, R109, R146): BA=NONE, BB=NONE: D = 0. -/
theorem test_B11 :
    tick 0x00010000 { t1 := 0x5555 } { t1 := 0x0000, stepCtr := 1 } := by decide

/-- B12 (R110): BB=R2, OW[3:0]=3; OW[7:4] ignored. -/
theorem test_B12 :
    tick 0x0000C100 { ow := 0x0073, r3 := 0x5a5a } { ow := 0x0073, r3 := 0x5a5a, t0 := 0x5a5a, stepCtr := 1 } := by decide

/-- B15 (R113): BB=K1. -/
theorem test_B15 :
    tick 0x0000C400 {} { t0 := 0x0001, stepCtr := 1 } := by decide

/-- B16 (R114): BB=K2. -/
theorem test_B16 :
    tick 0x0000C500 {} { t0 := 0x0002, stepCtr := 1 } := by decide

/-- B17 (R115): BB=K4. -/
theorem test_B17 :
    tick 0x0000C600 {} { t0 := 0x0004, stepCtr := 1 } := by decide

/-- B18 (R116, R117): BB=K8 at BYTE. -/
theorem test_B18 :
    tick 0x0002C700 {} { t0 := 0x0008, stepCtr := 1 } := by decide

/-- B19 (R119): ALU NONE: A | B. -/
theorem test_B19 :
    tick 0x00004340
      { iw := 0x0002, t0 := 0x1200, t1 := 0x0034 }
      { iw := 0x0002, t0 := 0x1200, t1 := 0x0034, r2 := 0x1234, stepCtr := 1 } := by decide

/-- B21 (R26, R100, R143): DST=R1 BYTE keeps high half. -/
theorem test_B21 :
    tick 0x00024040
      { iw := 0x0001, t0 := 0x0077, r1 := 0xabcd }
      { iw := 0x0001, t0 := 0x0077, r1 := 0xab77, stepCtr := 1 } := by decide

/-- B22 (R26, R101, R143): DST=R1 BYTEH keeps low half. -/
theorem test_B22 :
    tick 0x00044040
      { iw := 0x0001, t0 := 0x0077, r1 := 0xabcd }
      { iw := 0x0001, t0 := 0x0077, r1 := 0x77cd, stepCtr := 1 } := by decide

/-- B23 (R26, R102, R143): DST=R1 BYTEZ zero-extends. -/
theorem test_B23 :
    tick 0x00064040
      { iw := 0x0001, t0 := 0x1277, r1 := 0xabcd }
      { iw := 0x0001, t0 := 0x1277, r1 := 0x0077, stepCtr := 1 } := by decide

/-- A1 (R120): ADD 16-bit carry out, zero. -/
theorem test_A1 :
    tick 0x0000CB40
      { t0 := 0xffff, t1 := 0x0001 }
      { t0 := 0x0000, t1 := 0x0001, zf := true, cf := true, stepCtr := 1 } := by decide

/-- A5 (R121): SUB borrow. -/
theorem test_A5 :
    tick 0x0000D340
      { t0 := 0x0003, t1 := 0x0005 }
      { t0 := 0xfffe, t1 := 0x0005, cf := true, sf := true, stepCtr := 1 } := by decide

/-- A9 (R122): OR clears C. -/
theorem test_A9 :
    tick 0x0000DB40
      { t0 := 0xf0f0, t1 := 0x0f0f, cf := true }
      { t0 := 0xffff, t1 := 0x0f0f, sf := true, stepCtr := 1 } := by decide

/-- A10 (R123): XOR to zero. -/
theorem test_A10 :
    tick 0x0000E340
      { t0 := 0x5a5a, t1 := 0x5a5a, cf := true }
      { t0 := 0x0000, t1 := 0x5a5a, zf := true, stepCtr := 1 } := by decide

/-- A12 (R124): AND keeps sign. -/
theorem test_A12 :
    tick 0x0000EB40 { t0 := 0x80f0, t1 := 0xff00 } { t0 := 0x8000, t1 := 0xff00, sf := true, stepCtr := 1 } := by decide

/-- A14 (R125): SHL by 1. -/
theorem test_A14 :
    tick 0x0000F340 { t0 := 0x8001, t1 := 0x0001 } { t0 := 0x0002, t1 := 0x0001, cf := true, stepCtr := 1 } := by decide

/-- A19 (R125): SHL 8-bit by 9: zero, C=0. -/
theorem test_A19 :
    tick 0x0002F340 { t0 := 0x00ff, t1 := 0x0009 } { t0 := 0x0000, t1 := 0x0009, zf := true, stepCtr := 1 } := by decide

/-- A20 (R126): SHR by 1. -/
theorem test_A20 :
    tick 0x0000FB40 { t0 := 0x8001, t1 := 0x0001 } { t0 := 0x4000, t1 := 0x0001, cf := true, stepCtr := 1 } := by decide

/-- A22 (R126): SHR 8-bit by 8. -/
theorem test_A22 :
    tick 0x0002FB40
      { t0 := 0x0080, t1 := 0x0008 }
      { t0 := 0x0000, t1 := 0x0008, zf := true, cf := true, stepCtr := 1 } := by decide

/-- A25 (R119): ALU NONE keeps flags. -/
theorem test_A25 :
    tick 0x00010040
      { t0 := 0x0000, zf := true, cf := true, sf := true }
      { t0 := 0x0000, zf := true, cf := true, sf := true, stepCtr := 1 } := by decide

/-- A27 (R107, R113, R121, R147): SP <- SP - 1 at 0. -/
theorem test_A27 :
    tick 0x00015480 { sp := 0x0000 } { sp := 0xffff, cf := true, sf := true, stepCtr := 1 } := by decide

/-- M1 (R130, R136): RDIP WORD into T0, CS-relative, IP kept. -/
theorem test_M1 :
    tick 0x0048C000
      { cs := 0x0010, ip := 0x0004,
        mem := { cells := [(0x100004, 0xAB), (0x100005, 0xCD)] } }
      { cs := 0x0010, ip := 0x0004, t0 := 0xabcd, stepCtr := 1,
        mem := { cells := [(0x100004, 0xAB), (0x100005, 0xCD)] } } := by decide

/-- M3 (R39, R131, R137): RDT WORD at 0xFFFF wraps within SS. -/
theorem test_M3 :
    tick 0x00910000
      { ss := 0x0020, t0 := 0xffff,
        mem := { cells := [(0x200000, 0x22), (0x20ffff, 0x11)] } }
      { ss := 0x0020, t0 := 0xffff, t1 := 0x1122, stepCtr := 1,
        mem := { cells := [(0x200000, 0x22), (0x20ffff, 0x11)] } } := by decide

/-- M4 (R39, R131, R138): WRT WORD at 0xFFFF wraps. -/
theorem test_M4 :
    tick 0x00D00060
      { ss := 0x0020, t0 := 0xffff, t1 := 0xabcd }
      { ss := 0x0020, t0 := 0xffff, t1 := 0xabcd, stepCtr := 1,
        mem := { cells := [(0x200000, 0xCD), (0x20ffff, 0xAB)] } } := by decide

/-- M7 (R132, R138): SEGI with IW[3:0]=7 (DS). -/
theorem test_M7 :
    tick 0x00D80060
      { iw := 0x0a37, ds := 0x0003, t0 := 0x0080, t1 := 0x1234 }
      { iw := 0x0a37, ds := 0x0003, t0 := 0x0080, t1 := 0x1234, stepCtr := 1,
        mem := { cells := [(0x30080, 0x12), (0x30081, 0x34)] } } := by decide

/-- M8 (R132, R173): SEGI with IW[3:0]=1 faults. -/
theorem test_M8 :
    tick 0x00D80060
      { iw := 0x0a31, t0 := 0x0080, t1 := 0x1234 }
      { iw := 0x0a31, t0 := 0x0080, t1 := 0x1234, run := .faulted .badSegmentIndex } := by decide

/-- M9 (R133, R137): SEGO with OW[7:4]=7 (DS). -/
theorem test_M9 :
    tick 0x00A04000
      { iw := 0x08d1, ow := 0x0070, ds := 0x0100, t0 := 0x0080,
        mem := { cells := [(0x1000080, 0x12), (0x1000081, 0x34)] } }
      { iw := 0x08d1, ow := 0x0070, ds := 0x0100, t0 := 0x0080, r1 := 0x1234, stepCtr := 1,
        mem := { cells := [(0x1000080, 0x12), (0x1000081, 0x34)] } } := by decide

/-- M11 (R129, R173): memory op with SEG=NONE faults. -/
theorem test_M11 :
    tick 0x00810000 {} { run := .faulted .noSegment } := by decide

/-- M12 (R134, R173): memory op with SEG=INT faults. -/
theorem test_M12 :
    tick 0x00A90000 {} { run := .faulted .unmodelled } := by decide

/-- M13 (R64, R134): SEG=INT without memory op is ignored. -/
theorem test_M13 :
    tick 0x00290040 { t0 := 0x4444 } { t0 := 0x4444, t1 := 0x4444, stepCtr := 1 } := by decide

/-- M15 (R127, R137): read replaces D, flags from ALU. -/
theorem test_M15 :
    tick 0x00890C40
      { t0 := 0xffff,
        mem := { cells := [(0, 0x05)] } }
      { t0 := 0xffff, t1 := 0x0005, zf := true, cf := true, stepCtr := 1,
        mem := { cells := [(0, 0x05)] } } := by decide

/-- M17 (R130, R143, R199): CS written through R1 while reading with CS: old CS used. -/
theorem test_M17 :
    tick 0x00484002
      { iw := 0x0006, cs := 0x0010,
        mem := { cells := [(0x100001, 0x20)] } }
      { iw := 0x0006, cs := 0x0020, ip := 0x0002, stepCtr := 1,
        mem := { cells := [(0x100001, 0x20)] } } := by decide

/-- L2 (R140): II, one-operand word: flags merged (Z=1,C=0,S=1). -/
theorem test_L2 :
    tick 0x0048000A
      { zf := true, sf := true,
        mem := { cells := [(0, 0x95), (1, 0x80)] } }
      { zf := true, sf := true, ip := 0x0002, iw := 0x95d0, stepCtr := 1,
        mem := { cells := [(0, 0x95), (1, 0x80)] } } := by decide

/-- L5 (R141): OI (RDB_OI). -/
theorem test_L5 :
    tick 0x004A0011
      { ip := 0x0006,
        mem := { cells := [(6, 0x73)] } }
      { ip := 0x0007, ow := 0x0073, stepCtr := 1,
        mem := { cells := [(6, 0x73)] } } := by decide

/-- L7 (R140, R143, R199): II and DST=R1: old IW index. -/
theorem test_L7 :
    tick 0x00004048 { iw := 0x0001, t0 := 0x0802 } { iw := 0x0802, t0 := 0x0802, r1 := 0x0802, stepCtr := 1 } := by decide

/-- L8 (R141, R144, R199): OI and DST=R2: old OW index. -/
theorem test_L8 :
    tick 0x00008050 { ow := 0x0002, t0 := 0x0003 } { ow := 0x0003, t0 := 0x0003, r2 := 0x0003, stepCtr := 1 } := by decide

/-- L11 (R148): DST=IE from K1. -/
theorem test_L11 :
    tick 0x00018400 {} { ie := true, stepCtr := 1 } := by decide

/-- L12 (R148): DST=IE with D=2 clears. -/
theorem test_L12 :
    tick 0x00018040 { t0 := 0x0002, ie := true } { t0 := 0x0002, stepCtr := 1 } := by decide

/-- L14 (R25, R144): DST=R2 index 5 at BYTE faults. -/
theorem test_L14 :
    tick 0x00028040 { ow := 0x0005, t0 := 0x0001 } { ow := 0x0005, t0 := 0x0001, run := .faulted .byteOfWordReg } := by decide

/-- F1 (R63, R173): IPC=7. -/
theorem test_F1 :
    tick 0x00000007 { stepCtr := 3 } { stepCtr := 3, run := .faulted .reservedCode } := by decide

/-- F2 (R63, R173): LAT=3. -/
theorem test_F2 :
    tick 0x00000018 {} { run := .faulted .reservedCode } := by decide

/-- F3 (R63, R173): BA=6. -/
theorem test_F3 :
    tick 0x000000C0 {} { run := .faulted .reservedCode } := by decide

/-- F4 (R63, R173): BA=7. -/
theorem test_F4 :
    tick 0x000000E0 {} { run := .faulted .reservedCode } := by decide

/-- F5 (R63, R173): DST=7. -/
theorem test_F5 :
    tick 0x0001C000 {} { run := .faulted .reservedCode } := by decide

/-- F6 (R63, R173): SEG=6 (even without memory op). -/
theorem test_F6 :
    tick 0x00300000 {} { run := .faulted .reservedCode } := by decide

/-- F7 (R63, R173): SEG=7. -/
theorem test_F7 :
    tick 0x00380000 {} { run := .faulted .reservedCode } := by decide

/-- F8 (R174): ReservedCode before StepTargetRange. -/
theorem test_F8 :
    tick 0x51000007 {} { run := .faulted .reservedCode } := by decide

/-- F10 (R174): IW index checked before OW index. -/
theorem test_F10 :
    tick 0x00020120 { iw := 0x0009, ow := 0x0004 } { iw := 0x0009, ow := 0x0004, run := .faulted .badRegIndex } := by decide

/-- F15 (R174, R87): faulting HLT word does not halt. -/
theorem test_F15 :
    tick 0x000000C5 { stepCtr := 1 } { stepCtr := 1, run := .faulted .reservedCode } := by decide

/-- F16 (R175, R78): fault leaves IP, step, memory unchanged. -/
theorem test_F16 :
    tick 0x00C84062
      { iw := 0x000a, ip := 0x0010, stepCtr := 7, t1 := 0xffff }
      { iw := 0x000a, ip := 0x0010, stepCtr := 7, t1 := 0xffff, run := .faulted .badRegIndex } := by decide

/-! ### Macro-instructions, one step each from memory -/

/-- X1 (R153): NOP. -/
theorem test_X1 :
    stepsTo
      { grain := .instruction }
      { ip := 0x0002, grain := .instruction } := by decide

/-- X2 (R154): HLT. -/
theorem test_X2 :
    stepsTo
      { mem := { cells := [(0, 0x04)] }, grain := .instruction }
      { ip := 0x0002, iw := 0x0400, stepCtr := 2, run := .halted,
        mem := { cells := [(0, 0x04)] }, grain := .instruction } := by decide

/-- X3 (R155): MOV r2, 0xBEEF. -/
theorem test_X3 :
    stepsTo
      { mem := { cells := [(0, 0x08), (1, 0xB2), (2, 0xBE), (3, 0xEF)] }, grain := .instruction }
      { r2 := 0xBEEF, ip := 0x0004, iw := 0x08B2,
        mem := { cells := [(0, 0x08), (1, 0xB2), (2, 0xBE), (3, 0xEF)] }, grain := .instruction } := by decide

/-- X4 (R156): MOV r3, 0x7F (imm8 keeps the high byte). -/
theorem test_X4 :
    stepsTo
      { r3 := 0x1234,
        mem := { cells := [(0, 0x08), (1, 0xA3), (2, 0x7F)] }, grain := .instruction }
      { r3 := 0x127F, ip := 0x0003, iw := 0x08A3,
        mem := { cells := [(0, 0x08), (1, 0xA3), (2, 0x7F)] }, grain := .instruction } := by decide

/-- X5 (R157): MOV r1, r0. -/
theorem test_X5 :
    stepsTo
      { r0 := 0x1234,
        mem := { cells := [(0, 0x08), (1, 0x91)] }, grain := .instruction }
      { r0 := 0x1234, r1 := 0x1234, ip := 0x0003, iw := 0x0891,
        mem := { cells := [(0, 0x08), (1, 0x91)] }, grain := .instruction } := by decide

/-- X8 (R158): MOV word[ds:0x80], 0x1234. -/
theorem test_X8 :
    stepsTo
      { ds := 0x0100,
        mem := { cells := [(0, 0x0A), (1, 0x37), (3, 0x80), (4, 0x12), (5, 0x34)] }, grain := .instruction }
      { ds := 0x0100, t0 := 0x0080, t1 := 0x1234, ip := 0x0006, iw := 0x0A37,
        mem := { cells := [(0, 0x0A), (1, 0x37), (3, 0x80), (4, 0x12), (5, 0x34), (0x1000080, 0x12), (0x1000081, 0x34)] },
            grain := .instruction } := by decide

/-- X10 (R158, R132, R175): MOV word[?:0x80] with segment index 0 faults at its write. -/
theorem test_X10 :
    stepsTo
      { mem := { cells := [(0, 0x0A), (1, 0x30), (3, 0x80), (4, 0x12), (5, 0x34)] }, grain := .instruction }
      { run := .faulted .badSegmentIndex, stepCtr := 3, t0 := 0x0080, t1 := 0x1234, ip := 0x0006, iw := 0x0A30,
        mem := { cells := [(0, 0x0A), (1, 0x30), (3, 0x80), (4, 0x12), (5, 0x34)] }, grain := .instruction } := by decide

/-- X11 (R159): MOV r1, word[ds:r0]. -/
theorem test_X11 :
    stepsTo
      { r0 := 0x0080, ds := 0x0100,
        mem := { cells := [(0, 0x08), (1, 0xD1), (2, 0x70), (0x1000080, 0x12), (0x1000081, 0x34)] }, grain := .instruction }
      { r0 := 0x0080, ds := 0x0100, r1 := 0x1234, ow := 0x0070, t0 := 0x0080, ip := 0x0003, iw := 0x08D1,
        mem := { cells := [(0, 0x08), (1, 0xD1), (2, 0x70), (0x1000080, 0x12), (0x1000081, 0x34)] },
            grain := .instruction } := by decide

/-- X12 (R160): MOV r2, byte[ds:r1] (zero-extends). -/
theorem test_X12 :
    stepsTo
      { r1 := 0x0020, r2 := 0xFFFF,
        mem := { cells := [(0, 0x08), (1, 0xF2), (2, 0x71), (0x20, 0x9C)] }, grain := .instruction }
      { r1 := 0x0020, r2 := 0x009C, ow := 0x0071, t0 := 0x0020, ip := 0x0003, iw := 0x08F2,
        mem := { cells := [(0, 0x08), (1, 0xF2), (2, 0x71), (0x20, 0x9C)] }, grain := .instruction } := by decide

/-- X13 (R161): ADD r0, r1 with carry out. -/
theorem test_X13 :
    stepsTo
      { r0 := 0xFFFF, r1 := 0x0001,
        mem := { cells := [(0, 0x0C), (1, 0x90), (2, 0x01)] }, grain := .instruction }
      { r0 := 0x0000, r1 := 0x0001, zf := true, cf := true, ow := 0x0001, ip := 0x0003, iw := 0x0C90,
        mem := { cells := [(0, 0x0C), (1, 0x90), (2, 0x01)] }, grain := .instruction } := by decide

/-- X15 (R162): ADD r1, 5. -/
theorem test_X15 :
    stepsTo
      { r1 := 0x7FFE,
        mem := { cells := [(0, 0x0C), (1, 0xB1), (3, 0x05)] }, grain := .instruction }
      { r1 := 0x8003, sf := true, t1 := 0x0005, ip := 0x0004, iw := 0x0CB1,
        mem := { cells := [(0, 0x0C), (1, 0xB1), (3, 0x05)] }, grain := .instruction } := by decide

/-- X16 (R163): SUB r0, r1 with borrow. -/
theorem test_X16 :
    stepsTo
      { r0 := 0x0003, r1 := 0x0005,
        mem := { cells := [(0, 0x10), (1, 0x90), (2, 0x01)] }, grain := .instruction }
      { r0 := 0xFFFE, r1 := 0x0005, cf := true, sf := true, ow := 0x0001, ip := 0x0003, iw := 0x1090,
        mem := { cells := [(0, 0x10), (1, 0x90), (2, 0x01)] }, grain := .instruction } := by decide

/-- X17 (R164): SUB r0, 1 to zero. -/
theorem test_X17 :
    stepsTo
      { r0 := 0x0001,
        mem := { cells := [(0, 0x10), (1, 0xB0), (3, 0x01)] }, grain := .instruction }
      { r0 := 0x0000, zf := true, t1 := 0x0001, ip := 0x0004, iw := 0x10B0,
        mem := { cells := [(0, 0x10), (1, 0xB0), (3, 0x01)] }, grain := .instruction } := by decide

/-- X18 (R165): SHL r2, 12. -/
theorem test_X18 :
    stepsTo
      { r2 := 0x000C,
        mem := { cells := [(0, 0x20), (1, 0xA2), (2, 0x0C)] }, grain := .instruction }
      { r2 := 0xC000, sf := true, t1 := 0x000C, ip := 0x0003, iw := 0x20A2,
        mem := { cells := [(0, 0x20), (1, 0xA2), (2, 0x0C)] }, grain := .instruction } := by decide

/-- X21 (R166, R140): JMP 0x1234 with all flags set (block 0x95F0). -/
theorem test_X21 :
    stepsTo
      { zf := true, cf := true, sf := true,
        mem := { cells := [(0, 0x95), (1, 0x80), (2, 0x12), (3, 0x34)] }, grain := .instruction }
      { zf := true, cf := true, sf := true, ip := 0x1234, iw := 0x95F0,
        mem := { cells := [(0, 0x95), (1, 0x80), (2, 0x12), (3, 0x34)] }, grain := .instruction } := by decide

/-- X22 (R167): JZ 0x10, taken. -/
theorem test_X22 :
    stepsTo
      { zf := true,
        mem := { cells := [(0, 0x99), (1, 0x80), (3, 0x10)] }, grain := .instruction }
      { zf := true, ip := 0x0010, iw := 0x9990,
        mem := { cells := [(0, 0x99), (1, 0x80), (3, 0x10)] }, grain := .instruction } := by decide

/-- X23 (R167): JZ 0x10, not taken. -/
theorem test_X23 :
    stepsTo
      { cf := true,
        mem := { cells := [(0, 0x99), (1, 0x80), (3, 0x10)] }, grain := .instruction }
      { cf := true, ip := 0x0004, iw := 0x99A0,
        mem := { cells := [(0, 0x99), (1, 0x80), (3, 0x10)] }, grain := .instruction } := by decide

/-- X24 (R168): JNZ 0x08, taken. -/
theorem test_X24 :
    stepsTo
      { mem := { cells := [(0, 0x9D), (1, 0x80), (3, 0x08)] }, grain := .instruction }
      { ip := 0x0008, iw := 0x9D80,
        mem := { cells := [(0, 0x9D), (1, 0x80), (3, 0x08)] }, grain := .instruction } := by decide

/-- X26 (R169, R140): undeclared word 0xFFFF (one-operand, flags merged to 000). -/
theorem test_X26 :
    stepsTo
      { mem := { cells := [(0, 0xFF), (1, 0xFF)] }, grain := .instruction }
      { ip := 0x0002, iw := 0xFF8F, stepCtr := 2, run := .halted,
        mem := { cells := [(0, 0xFF), (1, 0xFF)] }, grain := .instruction } := by decide

/-- X28 (R157, R24, R175): MOV r0, r8: source index 8 faults. -/
theorem test_X28 :
    stepsTo
      { mem := { cells := [(0, 0x08), (1, 0x90), (2, 0x08)] }, grain := .instruction }
      { run := .faulted .badRegIndex, stepCtr := 2, ow := 0x0008, ip := 0x0003, iw := 0x0890,
        mem := { cells := [(0, 0x08), (1, 0x90), (2, 0x08)] }, grain := .instruction } := by decide

/-! ### Witnesses of the hypotheses of the obligations -/

/-- A state at a reset of the engine, with residue in the state before. -/
theorem witness_ResetValues :
    (State.reset = State.reset) ∧ ∃ u, engineReset { r0 := 0xFFFF, ie := true, run := .halted, grain := .tick } = engineReset u :=
  ⟨rfl, _, rfl⟩

/-- A tick that writes T0 + T1 to memory at SS:T0. -/
theorem witness_StepKeepsCanonicalForm :
    let s : State := { t0 := 0x8000, t1 := 1, rom := [(0, 0x00D00B40)], mem := { cells := [(0x8000, 0x0A)] } }
    s.wf = true ∧ ∃ t, step s = .next t := ⟨by decide, _, rfl⟩

theorem witness_StepKeepsParameters : ∃ t, step State.reset = .next t := ⟨_, rfl⟩

theorem witness_StoppedEngineStaysStopped :
    ({ run := .halted } : State).run ≠ .fetching ∧ ({ run := .faulted .badSegmentIndex } : State).run ≠ .fetching := by decide

theorem witness_TickRunsDecodedWord : State.reset.grain = .tick := rfl

/-- `MOV r2, 0xBEEF` at CS:IP = 0:0. -/
theorem witness_InstructionStepRunsDecoded :
    let s : State := { mem := { cells := [(0, 0x08), (1, 0xB2), (2, 0xBE), (3, 0xEF)] }, grain := .instruction }
    s.grain = .instruction ∧ s.run = .fetching ∧ s.stepCtr = 0 ∧ currentWord s = cwFetch ∧
      decodeInstr (codeBytes s 6) = .ok (.movRegImm16 2 0xBEEF, [0, 0]) ∧
      (∀ k, k < 4 → codeLocation s k ∉ s.mem.windows) ∧
      blockIsExample s (Instr.movRegImm16 2 0xBEEF).instrWord = true := by
  intro s
  have bytes : codeBytes s 6 = [0x08, 0xB2, 0xBE, 0xEF, 0, 0] := by decide
  refine ⟨rfl, rfl, rfl, by decide, ?_, by decide, by decide⟩
  rw [bytes]
  rfl

/-- A row of each kind: a control word and an instruction word of 16 bits. -/
theorem witness_PlacedRowRunsNext :
    State.reset.wf = true ∧ decodeTableWord 32 0x00800002 = some (.ipcIpc2 { ipc := .ipc2, mem := .rdt }) ∧
      decodeTableWord 16 0x08B2 = some (.movRegImm16 2 0) := by decide

theorem witness_DecodeReadsBackFieldRows :
    (Instr.cjcCjs { cjc := .cjs, cjt := 15 }).WellFormed ∧ (Instr.cjcCjs { cjc := .cjs, cjt := 15 }).field? = some .cjc ∧
      (Instr.cjtRange { cjc := .cjz, cjt := 63 }).WellFormed ∧
      (Instr.cjtRange { cjc := .cjz, cjt := 63 }).field? = some .cjc := by decide

theorem witness_DecodeReadsBackInstructionWords :
    (Instr.movMemImm 15 0xFFFF 0x8000).WellFormed ∧ (Instr.movMemImm 15 0xFFFF 0x8000).field? = none ∧
      (Instr.illegal 0xFFFF).WellFormed ∧ (Instr.illegal 0xFFFF).field? = none := by decide

/-- A word beside a declared one, and the declared one. -/
theorem witness_UndeclaredWordsAreIllegal :
    isDeclared (wordOfBytes 0x08 0xC0) = false ∧ isDeclared (wordOfBytes 0x08 0xBF) = true := by decide

theorem witness_FaultChangesOnlyTheRunState :
    (Instr.memWrt { mem := .wrt }).controlWord? = some { mem := .wrt } ∧ ({} : State).run = .fetching ∧
      ({ mem := .wrt } : ControlWord).ipc ≠ .rtn ∧ validate { mem := .wrt } {} = some .noSegment := by decide

/-- An `RTN` word with a reserved code, a word with two faults, and a valid `HLT` word. -/
theorem witness_FaultPriority :
    (Instr.latReserved3 { ipc := .rtn }).controlWord? = some { ipc := .rtn, lat := .reserved3 } ∧
      (Instr.ipcHlt { dst := .r1, cjc := .cjz, cjt := 16 }).controlWord? =
        some { ipc := .hlt, dst := .r1, cjc := .cjz, cjt := 16 } ∧
      validate { ipc := .hlt, dst := .r1, cjc := .cjz, cjt := 16 } { iw := 8 } = some .stepTargetRange ∧
      (Instr.ipcHlt { dst := .r1 }).controlWord? = some { ipc := .hlt, dst := .r1 } ∧
      validate { ipc := .hlt, dst := .r1 } { iw := 7 } = none ∧ ({ iw := 7 } : State).run = .fetching := by decide

theorem witness_ReservedCodesFault :
    State.reset.run = .fetching ∧ ({ ipc := .ipc1 } : ControlWord).ipc ≠ .rtn := by decide

theorem witness_StepTargetOutOfRangeFaults :
    State.reset.run = .fetching ∧ ({ cjt := 16 } : ControlWord).ipc ≠ .rtn ∧ reservedCode { cjt := 16 } = false ∧
      16 ≤ ({ cjt := 16 } : ControlWord).cjt.toNat := by decide

theorem witness_ValidWordEndsAsItsPhasesSay :
    (Instr.segSegi { alu := .add, ba := .r1, dst := .r1, mem := .rdt, cjc := .cjz, cjt := 15 }).controlWord? =
        some { seg := .segi, alu := .add, ba := .r1, dst := .r1, mem := .rdt, cjc := .cjz, cjt := 15 } ∧
      Ready { seg := .segi, alu := .add, ba := .r1, dst := .r1, mem := .rdt, cjc := .cjz, cjt := 15 } { iw := 7 } := by
  unfold Ready; decide

/-- A word that writes no component but memory, and a word that writes none. -/
theorem witness_WriteSetOfEachField :
    let cw : ControlWord := { mem := .wrt, seg := .ss }
    let s : State := { ss := 1, t0 := 0xFFFF, mem := { cells := [(5, 9)] } }
    (∃ t, (Instr.memWrt cw).controlWord? = some cw ∧ exec (.memWrt cw) s = .next t) ∧
      cw.lat ≠ .ii ∧ cw.lat ≠ .oi ∧
      ¬ (cw.dst = .r1 ∧ Reg.ofIndex s.index1 = some .r0) ∧ ¬ (cw.dst = .r2 ∧ Reg.ofIndex s.index2 = some .r0) ∧
      ¬ (cw.dst = .sp ∧ Reg.r0 = .sp) ∧ cw.dst ≠ .t0 ∧ cw.dst ≠ .t1 ∧ cw.dst ≠ .ie ∧ cw.alu = .none ∧
      cw.ipc ≠ .ipc1 ∧ cw.ipc ≠ .ipc2 ∧ cw.ipc ≠ .ipc4 ∧ cw.ipc ≠ .jmp ∧ cw.mem = .wrt ∧
      0x1FFFE ≠ s.mem.locate (segValue cw.seg s) s.t0 ∧ 0x1FFFE ≠ s.mem.locate (segValue cw.seg s) (s.t0 + 1) ∧
      s.mem.wf = true ∧ ({} : ControlWord).mem ≠ .wrt :=
  ⟨⟨_, rfl, rfl⟩, by decide⟩

theorem witness_ReturnOnlyResetsTheStep :
    State.reset.run = .fetching ∧ (Instr.memWrt { ipc := .rtn }).controlWord? = some { ipc := .rtn, mem := .wrt } ∧
      ({ ipc := .rtn, mem := .wrt } : ControlWord).ipc = .rtn := by decide

theorem witness_IpControlRows :
    Ready { ({ ipc := .rtn, dst := .t0 } : ControlWord) with ipc := .none } { ip := 0xFFFF } ∧
      ({ iw := 8 } : State).run = .fetching ∧
      validate { ({ dst := .r1 } : ControlWord) with ipc := .hlt } { iw := 8 } = some .badRegIndex := by
  unfold Ready; decide

/-- The last legal target and the first illegal one. -/
theorem witness_StepJumpRows :
    (Ready { ({ cjc := .cjz, cjt := 15 } : ControlWord) with cjc := .none } { zf := true, stepCtr := 15 } ∧
      ({ cjc := .cjz, cjt := 15 } : ControlWord).cjt.toNat < 16) ∧
    (Ready { ({ cjc := .cjz, cjt := 16 } : ControlWord) with cjc := .none } {} ∧
      16 ≤ ({ cjc := .cjz, cjt := 16 } : ControlWord).cjt.toNat) := by
  unfold Ready; decide

theorem witness_LatchRows :
    Ready { ({ lat := .reserved3, seg := .cs, mem := .rdip } : ControlWord) with lat := .none }
      { mem := { cells := [(0, 0x80)] } } := by
  unfold Ready; decide

/-- Each row of BA, the index 7 of a word, the index 3 of a byte, and the first indices that fault. -/
theorem witness_BusARows :
    (Ready { ({} : ControlWord) with ba := .none } {} ∧ Ready { ({} : ControlWord) with ba := .t0 } {} ∧
      Ready { ({} : ControlWord) with ba := .t1 } {} ∧ Ready { ({} : ControlWord) with ba := .sp } {} ∧
      Ready { ({} : ControlWord) with ba := .ie } {}) ∧
    (Reg.ofIndex ({ iw := 0xFFF7 } : State).index1 = some .ds ∧ Ready { ({} : ControlWord) with ba := .r1 } { iw := 0xFFF7 }) ∧
    (Reg.ofIndex ({ iw := 3 } : State).index1 = some .r3 ∧ Ready { ({ wid := .byteh } : ControlWord) with ba := .r1 } { iw := 3 }) ∧
    (({ iw := 8 } : State).run = .fetching ∧ ({ wid := .byte } : ControlWord).ipc ≠ .rtn ∧
      reservedCode { ({ wid := .byte } : ControlWord) with ba := .r1 } = false ∧
      ({ wid := .byte } : ControlWord).targetOutOfRange = false ∧ 8 ≤ ({ iw := 8 } : State).iw.toNat % 16 ∧
      4 ≤ ({ iw := 4 } : State).iw.toNat % 16 ∧ ({ iw := 4 } : State).iw.toNat % 16 < 8 ∧
      ({ wid := .byte } : ControlWord).wid ≠ .word) := by
  unfold Ready; decide

theorem witness_BusBRows :
    Ready { ({} : ControlWord) with bb := .none } {} ∧
    (Reg.ofIndex ({ ow := 0xFFF7 } : State).index2 = some .ds ∧ Ready { ({} : ControlWord) with bb := .r2 } { ow := 0xFFF7 }) ∧
    (Reg.ofIndex ({ ow := 3 } : State).index2 = some .r3 ∧ Ready { ({ wid := .byteh } : ControlWord) with bb := .r2 } { ow := 3 }) ∧
    (({ ow := 8 } : State).run = .fetching ∧ ({ wid := .byte } : ControlWord).ipc ≠ .rtn ∧
      reservedCode { wid := .byte } = false ∧ ({ wid := .byte } : ControlWord).targetOutOfRange = false ∧
      usesR1 { wid := .byte } = false ∧ 8 ≤ ({ ow := 8 } : State).ow.toNat % 16 ∧
      4 ≤ ({ ow := 4 } : State).ow.toNat % 16 ∧ ({ ow := 4 } : State).ow.toNat % 16 < 8 ∧
      ({ wid := .byte } : ControlWord).wid ≠ .word) := by
  unfold Ready; decide

/-- Every width, with the two operands as sources: the index 7 at a word, 3 at the byte widths. -/
theorem witness_WidthRows :
    (Ready { ({ ba := .r1, bb := .r2 } : ControlWord) with wid := .word } { iw := 7, ow := 4 } ∧
      Reg.ofIndex ({ iw := 7, ow := 4 } : State).index1 = some .ds ∧
      Reg.ofIndex ({ iw := 7, ow := 4 } : State).index2 = some .sp) ∧
    (∀ wid ∈ [WidCode.byte, .byteh, .bytez], Ready { ({ ba := .r1, bb := .r2 } : ControlWord) with wid := wid } { iw := 3, ow := 0 }) ∧
      Reg.ofIndex ({ iw := 3, ow := 0 } : State).index1 = some .r3 ∧
      Reg.ofIndex ({ iw := 3, ow := 0 } : State).index2 = some .r0 := by
  unfold Ready; decide

theorem witness_ArithmeticRows : Ready { ({ ba := .t0, bb := .t1 } : ControlWord) with alu := .none } { t0 := 0xFFFF, t1 := 1 } := by
  unfold Ready; decide

theorem witness_LogicRows : Ready { ({ ba := .t0, bb := .k8 } : ControlWord) with alu := .none } { t0 := 8 } := by
  unfold Ready; decide

/-- The amount is the largest, 15. -/
theorem witness_ShiftRows :
    Ready { ({ ba := .t0, bb := .t1, wid := .byte } : ControlWord) with alu := .none } { t0 := 0x81, t1 := 0x1F } := by
  unfold Ready; decide

/-- Every row of SEG with a memory operation, the indices 5 and 7; every row without one; the faults at the indices 4 and 8. -/
theorem witness_SegmentRows :
    (Ready { ({ mem := .rdt } : ControlWord) with seg := .cs } {} ∧ Ready { ({ mem := .wrt } : ControlWord) with seg := .ss } {}) ∧
    (Reg.ofIndex ({ iw := 5 } : State).index1 = some .ss ∧ Ready { ({ mem := .wrt } : ControlWord) with seg := .segi } { iw := 5 }) ∧
    (Reg.ofIndex ({ ow := 0x70 } : State).segIndex2 = some .ds ∧
      Ready { ({ mem := .rdt } : ControlWord) with seg := .sego } { ow := 0x70 }) ∧
    (({} : ControlWord).mem = .none ∧ Ready { ({} : ControlWord) with seg := .none } {}) ∧
    (({ iw := 4, ow := 0x80 } : State).run = .fetching ∧ ({ mem := .rdt } : ControlWord).ipc ≠ .rtn ∧
      ({ mem := .rdt } : ControlWord).mem ≠ .none ∧
      validate { ({ mem := .rdt } : ControlWord) with mem := .none, seg := .none } { iw := 4, ow := 0x80 } = none ∧
      isSeg (({ iw := 4, ow := 0x80 } : State).iw.toNat % 16) = false ∧
      isSeg (({ iw := 4, ow := 0x80 } : State).ow.toNat / 16 % 16) = false) := by
  unfold Ready; decide

theorem witness_MemoryRows :
    Ready { ({ seg := .cs } : ControlWord) with mem := .none } {} ∧ Ready { ({ seg := .cs } : ControlWord) with mem := .rdip } {} ∧
      Ready { ({ seg := .ss } : ControlWord) with mem := .rdt } { t0 := 0xFFFF } ∧
      Ready { ({ seg := .ss } : ControlWord) with mem := .wrt } { t0 := 0xFFFF } ∧
      State.reset.run = .fetching ∧ ({ seg := .int } : ControlWord).ipc ≠ .rtn ∧
      validate { ({ seg := .int } : ControlWord) with mem := .none } State.reset = none ∧
      segmentFault { ({ seg := .int } : ControlWord) with mem := .rdip } State.reset = some .unmodelled := by
  unfold Ready; decide

theorem witness_DirectDestinationRows :
    Ready { ({ dst := .ie, ba := .t0 } : ControlWord) with dst := .none } { t0 := 0xFFFF } := by
  unfold Ready; decide

theorem witness_IndexedDestinationRows :
    (Reg.ofIndex ({ iw := 7 } : State).index1 = some .ds ∧ Ready { ({} : ControlWord) with dst := .r1 } { iw := 7 }) ∧
    (Reg.ofIndex ({ iw := 3 } : State).index1 = some .r3 ∧ Ready { ({ wid := .byteh } : ControlWord) with dst := .r1 } { iw := 3 }) ∧
    (Reg.ofIndex ({ ow := 4 } : State).index2 = some .sp ∧ Ready { ({} : ControlWord) with dst := .r2 } { ow := 4 }) ∧
    (({ iw := 8, ow := 8 } : State).run = .fetching ∧ ({ wid := .bytez } : ControlWord).ipc ≠ .rtn ∧
      reservedCode { ({ wid := .bytez } : ControlWord) with dst := .none } = false ∧
      ({ wid := .bytez } : ControlWord).targetOutOfRange = false ∧ 8 ≤ ({ iw := 8, ow := 8 } : State).iw.toNat % 16 ∧
      8 ≤ ({ iw := 8, ow := 8 } : State).ow.toNat % 16 ∧ ({ wid := .bytez } : ControlWord).ba ≠ .r1 ∧
      4 ≤ ({ iw := 4, ow := 4 } : State).iw.toNat % 16 ∧ ({ iw := 4, ow := 4 } : State).iw.toNat % 16 < 8 ∧
      4 ≤ ({ iw := 4, ow := 4 } : State).ow.toNat % 16 ∧ ({ iw := 4, ow := 4 } : State).ow.toNat % 16 < 8 ∧
      ({ wid := .bytez } : ControlWord).wid ≠ .word) := by
  unfold Ready; decide

/-- RAM-like bytes at the top of a segment, in a memory with a window elsewhere. -/
theorem witness_ReadIsBigEndian :
    let m : Memory := { windows := [7], cells := [(0x1FFFF, 0xAB)] }
    ram m 1 0xFFFF ∧ ram m 1 (0xFFFF + 1) := by
  unfold ram; decide

/-- Two offsets apart, the second wrapping. -/
theorem witness_WriteStoresHighByteFirst :
    let m : Memory := { windows := [7], cells := [(0x1FFFF, 0xAB)] }
    m.wf = true ∧ ram m 1 0xFFFF ∧ ram m 1 (0xFFFF + 1) := by
  unfold ram; decide

/-- Two offsets that PHYS decodes to one location. -/
theorem witness_WriteStoresHighByteFirst_alias :
    let m : Memory := { phys := [(1, 0)] }
    m.wf = true ∧ ram m 0 0 ∧ ram m 0 (0 + 1) ∧ m.locate 0 0 = m.locate 0 (0 + 1) := by
  unfold ram; decide

theorem witness_ReadAfterWrite :
    let m : Memory := { windows := [7] }
    m.wf = true ∧ ram m 1 0xFFFF ∧ ram m 1 (0xFFFF + 1) ∧ m.locate 1 0xFFFF ≠ m.locate 1 (0xFFFF + 1) := by
  unfold ram; decide

theorem witness_WindowAnswersAreFree : ¬ ram { windows := [7] } 0 7 := by
  unfold ram; decide

/-- A tick that reads two bytes of windows. -/
theorem witness_TickMakesAtMostTwoAccesses : ∃ t, engineTick { mem := { windows := [0, 1] } } = .next t := ⟨_, rfl⟩

theorem witness_InterruptEnableHasNoEffect :
    (Instr.dstIe { bb := .k1 }).controlWord? = some { dst := .ie, bb := .k1 } ∧
      ({ dst := .ie, bb := .k1 } : ControlWord).ba ≠ .ie := by decide

theorem witness_NopHltIllegal : State.reset.run = .fetching ∧ isDeclared 0xFFFF = false := by decide

/-- The last index of each case and the first of the next. -/
theorem witness_MoveImmediate :
    State.reset.run = .fetching ∧ Reg.ofIndex 7 = some .ds ∧ 8 ≤ (8 : Nibble).toNat ∧ Reg.ofIndex 3 = some .r3 ∧
      (3 : Nibble).toNat < 4 ∧ 4 ≤ (4 : Nibble).toNat := by decide

theorem witness_MoveRegister :
    State.reset.run = .fetching ∧ Reg.ofIndex 7 = some .ds ∧
      Reg.ofIndex (BitVec.ofNat 4 ((0xF0 : Byte).toNat % 16)) = some .r0 ∧
      (8 ≤ (8 : Nibble).toNat ∨ 8 ≤ (0x00 : Byte).toNat % 16) ∧ (8 ≤ (0 : Nibble).toNat ∨ 8 ≤ (0x08 : Byte).toNat % 16) := by decide

theorem witness_MoveToMemory :
    State.reset.run = .fetching ∧ Reg.ofIndex 5 = some .ss ∧ isSeg (5 : Nibble).toNat = true ∧ Reg.ofIndex 7 = some .ds ∧
      isSeg (7 : Nibble).toNat = true ∧ isSeg (4 : Nibble).toNat = false ∧ isSeg (8 : Nibble).toNat = false := by decide

/-- A base index that faults; a destination that faults, at both widths; a segment that faults; and one operand byte that loads. -/
theorem witness_MoveFromMemory :
    State.reset.run = .fetching ∧ 8 ≤ (BitVec.ofNat 4 ((0x78 : Byte).toNat % 16)).toNat ∧
      Reg.ofIndex (BitVec.ofNat 4 ((0x77 : Byte).toNat % 16)) = some .ds ∧ 8 ≤ (8 : Nibble).toNat ∧ 4 ≤ (4 : Nibble).toNat ∧
      (4 : Nibble).toNat < 8 ∧ Reg.ofIndex 3 = some .r3 ∧ (WidCode.bytez = .bytez → (3 : Nibble).toNat < 4) ∧
      Reg.ofIndex 7 = some .ds ∧ (WidCode.word = .bytez → (7 : Nibble).toNat < 4) ∧
      isSeg (BitVec.ofNat 4 ((0x47 : Byte).toNat / 16)).toNat = false ∧
      Reg.ofIndex (BitVec.ofNat 4 ((0x57 : Byte).toNat / 16)) = some .ss ∧
      isSeg (BitVec.ofNat 4 ((0x57 : Byte).toNat / 16)).toNat = true := by decide

theorem witness_AddSubRegister :
    State.reset.run = .fetching ∧ Reg.ofIndex 7 = some .ds ∧
      Reg.ofIndex (BitVec.ofNat 4 ((0xF0 : Byte).toNat % 16)) = some .r0 ∧
      (8 ≤ (8 : Nibble).toNat ∨ 8 ≤ (0x00 : Byte).toNat % 16) ∧ (8 ≤ (0 : Nibble).toNat ∨ 8 ≤ (0x08 : Byte).toNat % 16) := by decide

theorem witness_AddSubImmediate :
    State.reset.run = .fetching ∧ Reg.ofIndex 7 = some .ds ∧ 8 ≤ (8 : Nibble).toNat := by decide

theorem witness_ShiftLeftImmediate :
    State.reset.run = .fetching ∧ Reg.ofIndex 7 = some .ds ∧ 8 ≤ (8 : Nibble).toNat := by decide

theorem witness_Jumps :
    ({ zf := true } : State).run = .fetching ∧ ({ zf := false } : State).run = .fetching ∧ 7 < 8 := ⟨rfl, rfl, by decide⟩

theorem witness_ExampleRomIsWellFormed : (0xFFF0 : Word).toNat % 16 = 0 := by decide

/-- `MOV r0, r8`, which faults in the third of its four ticks. -/
theorem witness_MacroInstructionIsItsTicks :
    macroAt { mem := { cells := [(0, 0x08), (1, 0x90), (2, 0x08)] } } = some (.movRegReg 0 0x08) := by decide

theorem witness_InstructionStepIsTicks : ({ grain := .instruction } : State).grain = .instruction := rfl

/-- H1 (R32, R189): a reset from Halted, the way the host leaves it. -/
theorem test_engineReset :
    engineReset { r1 := 0x1234, ip := 7, zf := true, run := .halted, mem := { cells := [(3, 9)] } } =
      { mem := { cells := [(3, 9)] } } := by decide

/-! ### Runs with a budget (R195) -/

/-- A run of `s` with this budget reports this end and this state. -/
abbrev runsTo (fuel : Nat) (s : State) (ending : RunEnd) (final : State) : Prop :=
  runTicks fuel s = .next { ending, final }

/-- The program `95 80 00 00` of H5, with IW as given: `JMP 0x0000`, a loop to itself. -/
def jumpToItself (iw : Word) : State := { iw, mem := { cells := [(0, 0x95), (1, 0x80)] } }

/-- The first pass of H5's loop. -/
theorem test_H5_first_pass : ticks 3 (jumpToItself 0) = .next (jumpToItself 0x9580) := by rfl

/-- Every later pass of H5's loop. -/
theorem test_H5_pass : ticks 3 (jumpToItself 0x9580) = .next (jumpToItself 0x9580) := by rfl

/-- H5 (R166, R195, R205): the budget of 30 ticks runs out with the engine still Fetching. -/
theorem test_H5 : runsTo 30 (jumpToItself 0) .budgetExhausted (jumpToItself 0x9580) :=
  (runTicks_add test_H5_first_pass rfl 27).trans (runTicks_loop test_H5_pass rfl 9)

/-- `HLT` (R154): one tick is too few, two are just enough, and a third is not made. -/
theorem test_run_halts :
    let mem : Memory := { cells := [(0, 0x04)] }
    let halted : State := { ip := 2, iw := 0x0400, stepCtr := 2, run := .halted, mem }
    runsTo 1 { mem } .budgetExhausted { ip := 2, iw := 0x0400, stepCtr := 1, mem } ∧
      runsTo 2 { mem } .halted halted ∧ runsTo 3 { mem } .halted halted := by
  and_intros <;> rfl

/-- X28 as a run (R157, R175, R195): `MOV r0, r8` ends in a failure. -/
theorem test_run_faults :
    let mem : Memory := { cells := [(0, 0x08), (1, 0x90), (2, 0x08)] }
    runsTo 9 { mem } (.faulted .badRegIndex)
      { run := .faulted .badRegIndex, stepCtr := 2, ow := 0x0008, ip := 0x0003, iw := 0x0890, mem } := by
  rfl

end Sys2Proof.Tests
end

/-! SUPPORT. What one step can do to the control store, the step grain and memory, once for all steps: it keeps the first two and
makes at most one access to the third. An invariant about these components follows from `exec_frame` or `step_frame` and what
one access does. -/

namespace Sys2Proof.Machine

/-- Memory after at most one access to it (R135 to R138). -/
inductive AtMostOneAccess (m : Memory) : Memory → Prop where
  | none : AtMostOneAccess m m
  | read (wid : WidCode) (seg off : Word) : AtMostOneAccess m (m.read wid seg off).2
  | write (wid : WidCode) (seg off v : Word) : AtMostOneAccess m (m.write wid seg off v)

/-- An access changes neither PHYS nor the windows. -/
theorem AtMostOneAccess.keeps_decoding {m n : Memory} (h : AtMostOneAccess m n) :
    n.phys = m.phys ∧ n.windows = m.windows := by
  cases h with
  | none => exact ⟨rfl, rfl⟩
  | read wid seg off => exact ⟨read_phys m wid seg off, read_windows m wid seg off⟩
  | write wid seg off v => exact ⟨write_phys m wid seg off v, write_windows m wid seg off v⟩

/-- What a step from `s` to `t` does outside the engine's own components (R32): nothing but at most one memory access. -/
structure StepFrame (s t : State) : Prop where
  rom : t.rom = s.rom
  grain : t.grain = s.grain
  mem : AtMostOneAccess s.mem t.mem

/-- The frame of a step without a memory access. -/
theorem StepFrame.of_mem_eq {s t : State} (rom : t.rom = s.rom) (grain : t.grain = s.grain) (mem : t.mem = s.mem) :
    StepFrame s t :=
  ⟨rom, grain, mem ▸ .none⟩

theorem StepFrame.refl (s : State) : StepFrame s s := .of_mem_eq rfl rfl rfl

/-- The engine's own components at the start do not matter to the frame. -/
theorem StepFrame.of_start_eq {s u t : State} (h : StepFrame u t) (rom : u.rom = s.rom) (grain : u.grain = s.grain)
    (mem : u.mem = s.mem) : StepFrame s t :=
  ⟨h.rom.trans rom, h.grain.trans grain, mem ▸ h.mem⟩

/-! ### Control words -/

theorem memoryPhase_access (cw : ControlWord) (s : State) (d : Word) : AtMostOneAccess s.mem (memoryPhase cw s d).2 := by
  obtain h | ⟨off, h⟩ | ⟨-, h⟩ := memoryPhase_mem cw s d <;> rw [h]
  · exact .none
  · exact .read ..
  · exact .write ..

theorem performWord_frame (cw : ControlWord) (s : State) : StepFrame s (performWord cw s) :=
  ⟨performWord_rom cw s, performWord_grain cw s, performWord_mem cw s ▸ memoryPhase_access cw s _⟩

theorem tickWord_frame (cw : ControlWord) (s : State) : StepFrame s (tickWord cw s) := by
  obtain ⟨-, h⟩ | ⟨-, -, h⟩ | ⟨-, -, f, -, h⟩ | ⟨-, -, -, h⟩ := tickWord_cases cw s <;> rw [h]
  · exact .refl s
  · exact .of_mem_eq rfl rfl rfl
  · exact .of_mem_eq rfl rfl rfl
  · exact performWord_frame cw s

/-! ### The instructions of the example ROM -/

/-- An instruction of the example ROM has the frame of its end state, whether or not the engine is Fetching. -/
theorem whenFetching_frame {s u t : State} (hu : StepFrame s u) (h : whenFetching s u = .next t) : StepFrame s t := by
  by_cases hf : s.run = .fetching
  · rw [whenFetching_run hf] at h
    cases h
    exact hu
  · rw [whenFetching_stopped hf] at h
    cases h
    exact .refl s

theorem aluOnReg_frame (op : AluCode) (r : Nibble) (v : Word) (s : State) : StepFrame s (aluOnReg op r v s) := by
  unfold aluOnReg
  split
  · exact .of_mem_eq (by simp) (by simp) (by simp)
  · exact .of_mem_eq rfl rfl rfl

theorem aluOnRegs_frame (op : AluCode) (r : Nibble) (operand : Byte) (s : State) :
    StepFrame s (aluOnRegs op r operand s) := by
  unfold aluOnRegs
  split
  · exact aluOnReg_frame ..
  · exact .of_mem_eq rfl rfl rfl

/-- A load through a segment reads at most once, whichever of its checks fails. -/
theorem loadThroughSegment_frame (wid : WidCode) (r : Nibble) (operand : Byte) (s : State) :
    StepFrame s (loadThroughSegment wid r operand s) := by
  unfold loadThroughSegment
  split
  · exact .of_mem_eq rfl rfl rfl
  · dsimp only
    split
    · exact .of_mem_eq rfl rfl rfl
    · split
      · exact ⟨by simp, by simp, by simpa using .read ..⟩
      · exact .of_mem_eq rfl rfl rfl

theorem execMovRegImm16_frame {r : Nibble} {imm : Word} {s t : State} (h : execMovRegImm16 r imm s = .next t) :
    StepFrame s t := by
  refine whenFetching_frame ?_ h
  split
  · exact .of_mem_eq (by simp) (by simp) (by simp)
  · exact .of_mem_eq rfl rfl rfl

theorem execMovRegImm8_frame {r : Nibble} {imm : Byte} {s t : State} (h : execMovRegImm8 r imm s = .next t) :
    StepFrame s t := by
  refine whenFetching_frame ?_ h
  split
  · exact .of_mem_eq rfl rfl rfl
  · exact .of_mem_eq (by simp) (by simp) (by simp)

theorem execMovRegReg_frame {r : Nibble} {operand : Byte} {s t : State} (h : execMovRegReg r operand s = .next t) :
    StepFrame s t := by
  refine whenFetching_frame ?_ h
  split
  · exact .of_mem_eq (by simp) (by simp) (by simp)
  · exact .of_mem_eq rfl rfl rfl

theorem execMovMemImm_frame {seg : Nibble} {addr value : Word} {s t : State}
    (h : execMovMemImm seg addr value s = .next t) : StepFrame s t := by
  refine whenFetching_frame ?_ h
  split
  · exact ⟨rfl, rfl, .write .word _ addr value⟩
  · exact .of_mem_eq rfl rfl rfl

/-! ### Instructions and steps -/

/-- Every instruction keeps the control store and the grain, and accesses memory at most once. A control word is a tick;
the others are the seventeen instructions of the example ROM. -/
theorem exec_frame {i : Instr} {s t : State} (h : exec i s = .next t) : StepFrame s t := by
  cases hcw : i.controlWord? with
  | some cw =>
    rw [exec_of_controlWord hcw] at h
    cases h
    exact tickWord_frame cw s
  | none =>
    cases i
    case nop | hlt | jmp | jz | jnz | illegal =>
      refine whenFetching_frame ?_ h
      exact .of_mem_eq rfl rfl rfl
    case movRegImm16 => exact execMovRegImm16_frame h
    case movRegImm8 => exact execMovRegImm8_frame h
    case movRegReg => exact execMovRegReg_frame h
    case movMemImm => exact execMovMemImm_frame h
    case movRegMemw | movRegMemb =>
      refine whenFetching_frame ?_ h
      exact (loadThroughSegment_frame ..).of_start_eq rfl rfl rfl
    case addRegReg | subRegReg =>
      refine whenFetching_frame ?_ h
      exact (aluOnRegs_frame ..).of_start_eq rfl rfl rfl
    case addRegImm16 | subRegImm16 | shlRegImm8 =>
      refine whenFetching_frame ?_ h
      exact (aluOnReg_frame ..).of_start_eq rfl rfl rfl
    all_goals cases hcw

/-- A step at either grain is one instruction: the one of the example ROM that begins here, else that of the current control word. -/
theorem step_eq_exec (s : State) : ∃ i, step s = exec i s := by
  unfold step
  split
  · exact ⟨_, rfl⟩
  · unfold instructionStep
    split
    · exact ⟨_, rfl⟩
    · exact ⟨_, rfl⟩

theorem step_frame {s t : State} (h : step s = .next t) : StepFrame s t := by
  obtain ⟨i, hi⟩ := step_eq_exec s
  exact exec_frame (hi ▸ h)

/-! ### Reset and parameters (10_state.md) -/

/-- The reset state is itself the state after a reset of the engine. -/
theorem engineReset_reset : engineReset State.reset = State.reset := rfl

/-- Settles O4: a step accesses memory at most once and keeps the rest (`step_frame`), and an access keeps PHYS and the windows. -/
theorem stepKeepsParameters : Obligations.StepKeepsParameters := by
  intro s t h
  obtain ⟨hrom, hgrain, hmem⟩ := step_frame h
  obtain ⟨hphys, hwindows⟩ := hmem.keeps_decoding
  exact ⟨hrom, hphys, hwindows, hgrain⟩

/-- Settles O1: the first reset is a case of the later ones, which take only memory, the control store and the grain from the state
before. -/
theorem resetValues : Obligations.ResetValues := by
  refine ⟨fun s hs => ?_, fun u => ⟨rfl, rfl⟩⟩
  obtain ⟨u, rfl⟩ : ∃ u, s = engineReset u := hs.elim (fun h => ⟨State.reset, h.trans engineReset_reset.symm⟩) id
  and_intros <;> rfl

end Sys2Proof.Machine

/-! SUPPORT. The rules of memory access at RAM-like locations and at windows (20_memory.md), one for each operation: what a read
gives, what a byte location holds after a write, and that a write moves no location. The obligations about memory follow from
them without unfolding an access again. -/

namespace Sys2Proof.Machine

open Claims (ram)

/-! ### The bytes of a word (R38) -/

theorem highByte_toNat (w : Word) : (highByte w).toNat = w.toNat / 256 := by
  simp only [highByte, BitVec.extractLsb'_toNat, Nat.shiftRight_eq_div_pow]
  omega

theorem lowByte_toNat (w : Word) : (lowByte w).toNat = w.toNat % 256 := by
  simp [lowByte, BitVec.extractLsb'_toNat]

theorem wordOfBytes_toNat (h l : Byte) : (wordOfBytes h l).toNat = h.toNat * 256 + l.toNat := by
  have high := highByte_toNat (wordOfBytes h l)
  have low := lowByte_toNat (wordOfBytes h l)
  rw [highByte_wordOfBytes] at high
  rw [lowByte_wordOfBytes] at low
  omega

theorem wordOfBytes_eq_ofNat (h l : Byte) : wordOfBytes h l = BitVec.ofNat 16 (h.toNat * 256 + l.toNat) := by
  rw [← wordOfBytes_toNat, BitVec.ofNat_toNat, BitVec.setWidth_eq]

/-! ### Accesses by width (R36, R37) -/

theorem read_word (m : Memory) (seg off : Word) :
    m.read .word seg off =
      (wordOfBytes (m.readByte seg off).1 ((m.readByte seg off).2.readByte seg (off + 1)).1,
        ((m.readByte seg off).2.readByte seg (off + 1)).2) := rfl

theorem read_of_ne_word {wid : WidCode} (h : wid ≠ .word) (m : Memory) (seg off : Word) :
    m.read wid seg off = ((m.readByte seg off).1.setWidth 16, (m.readByte seg off).2) := by
  cases wid with
  | word => exact absurd rfl h
  | byte | byteh | bytez => rfl

theorem write_word (m : Memory) (seg off v : Word) :
    m.write .word seg off v = (m.writeByte seg off (highByte v)).writeByte seg (off + 1) (lowByte v) := rfl

theorem write_of_ne_word {wid : WidCode} (h : wid ≠ .word) (m : Memory) (seg off v : Word) :
    m.write wid seg off v = m.writeByte seg off (lowByte v) := by
  cases wid with
  | word => exact absurd rfl h
  | byte | byteh | bytez => rfl

/-! ### RAM-like locations -/

theorem read_word_ram {m : Memory} {seg off : Word} (h : ram m seg off) (h' : ram m seg (off + 1)) :
    m.read .word seg off = (wordOfBytes (m.byteAt (m.locate seg off)) (m.byteAt (m.locate seg (off + 1))), m) := by
  rw [read_word, readByte_ram h, readByte_ram h']

theorem read_of_ne_word_ram {wid : WidCode} (hwid : wid ≠ .word) {m : Memory} {seg off : Word} (h : ram m seg off) :
    m.read wid seg off = ((m.byteAt (m.locate seg off)).setWidth 16, m) := by
  rw [read_of_ne_word hwid, readByte_ram h]

@[simp] theorem writeByte_locate (m : Memory) (seg off : Word) (b : Byte) (seg' off' : Word) :
    (m.writeByte seg off b).locate seg' off' = m.locate seg' off' :=
  locate_congr (writeByte_phys m seg off b) seg' off'

@[simp] theorem write_locate (m : Memory) (wid : WidCode) (seg off v seg' off' : Word) :
    (m.write wid seg off v).locate seg' off' = m.locate seg' off' :=
  locate_congr (write_phys m wid seg off v) seg' off'

/-- No write turns a RAM-like location into a window or back. -/
@[simp] theorem ram_writeByte (m : Memory) (seg off : Word) (b : Byte) (seg' off' : Word) :
    ram (m.writeByte seg off b) seg' off' ↔ ram m seg' off' := by
  simp [ram]

@[simp] theorem ram_write (m : Memory) (wid : WidCode) (seg off v seg' off' : Word) :
    ram (m.write wid seg off v) seg' off' ↔ ram m seg' off' := by
  simp [ram]

theorem writeByte_byteAt_ram {m : Memory} (hm : m.wf = true) {seg off : Word} (h : ram m seg off) (b : Byte) (l : Nat) :
    (m.writeByte seg off b).byteAt l = if l = m.locate seg off then b else m.byteAt l := by
  rw [writeByte_byteAt hm]
  simp only [show m.locate seg off ∉ m.windows from h, not_false_eq_true, true_and, eq_comm]

/-- The low byte is written last, so it stays where the two offsets have one location. -/
theorem write_word_byteAt {m : Memory} (hm : m.wf = true) {seg off : Word} (h : ram m seg off) (h' : ram m seg (off + 1))
    (v : Word) (l : Nat) :
    (m.write .word seg off v).byteAt l =
      if l = m.locate seg (off + 1) then lowByte v else if l = m.locate seg off then highByte v else m.byteAt l := by
  rw [write_word, writeByte_byteAt_ram (writeByte_wf hm ..) ((ram_writeByte ..).mpr h'), writeByte_locate,
    writeByte_byteAt_ram hm h]

theorem write_of_ne_word_byteAt {m : Memory} (hm : m.wf = true) {seg off : Word} (h : ram m seg off) {wid : WidCode}
    (hwid : wid ≠ .word) (v : Word) (l : Nat) :
    (m.write wid seg off v).byteAt l = if l = m.locate seg off then lowByte v else m.byteAt l := by
  rw [write_of_ne_word hwid, writeByte_byteAt_ram hm h]

/-! ### Windows (R42) -/

theorem readByte_window {m : Memory} {seg off : Word} (h : ¬ ram m seg off) :
    m.readByte seg off =
      (Config.windowByte (m.locate seg off) m.log, { m with log := .read (m.locate seg off) :: m.log }) :=
  if_pos (not_not.mp h)

theorem writeByte_window {m : Memory} {seg off : Word} (h : ¬ ram m seg off) (b : Byte) :
    m.writeByte seg off b = { m with log := .write (m.locate seg off) b :: m.log } :=
  if_pos (not_not.mp h)

/-! ### The obligations -/

/-- Settles O39: the rules of a read at RAM-like locations, with the word and the byte as numbers. -/
theorem readIsBigEndian : Obligations.ReadIsBigEndian := by
  intro m seg off h
  refine ⟨fun h' => ?_, fun wid hwid => ?_⟩
  · rw [read_word_ram h h', wordOfBytes_eq_ofNat]
  · rw [read_of_ne_word_ram hwid h, BitVec.ofNat_toNat]

/-- Settles O40: the rules of what a location holds after a write, with the bytes as numbers. -/
theorem writeStoresHighByteFirst : Obligations.WriteStoresHighByteFirst := by
  intro m seg off v l hm h
  refine ⟨fun h' => ?_, fun wid hwid => ?_⟩
  · rw [write_word_byteAt hm h h', apply_ite BitVec.toNat, apply_ite BitVec.toNat, lowByte_toNat, highByte_toNat]
  · rw [write_of_ne_word_byteAt hm h hwid, apply_ite BitVec.toNat, lowByte_toNat]

/-- Settles O42: after the write the two locations hold the value's bytes, and the pairs still decode to them. -/
theorem readAfterWrite : Obligations.ReadAfterWrite := by
  intro m seg off v hm h h' apart
  have ramHigh : ram (m.write .word seg off v) seg off := (ram_write ..).mpr h
  have ramLow : ram (m.write .word seg off v) seg (off + 1) := (ram_write ..).mpr h'
  have high : (m.write .word seg off v).byteAt (m.locate seg off) = highByte v := by
    rw [write_word_byteAt hm h h', if_neg apart, if_pos rfl]
  have low : (m.write .word seg off v).byteAt (m.locate seg (off + 1)) = lowByte v := by
    rw [write_word_byteAt hm h h', if_pos rfl]
  refine ⟨?_, ?_, ?_⟩
  · rw [read_word_ram ramHigh ramLow, write_locate, write_locate, high, low, wordOfBytes_high_low]
  · rw [read_of_ne_word_ram (by decide) ramHigh, write_locate, high, BitVec.toNat_setWidth_of_le (by decide),
      highByte_toNat]
  · rw [read_of_ne_word_ram (by decide) ramLow, write_locate, low, BitVec.toNat_setWidth_of_le (by decide),
      lowByte_toNat]

/-- Settles O41: the rules of a word access at the offset whose successor wraps to 0. -/
theorem wordAccessWrapsInItsSegment : Obligations.WordAccessWrapsInItsSegment := by
  intro m seg v
  have wrap : (0xFFFF : Word) + 1 = 0 := by decide
  rw [read_word, write_word, wrap]
  exact ⟨rfl, rfl⟩

/-- Settles O43: an access to a window touches nothing but the log. -/
theorem windowAnswersAreFree : Obligations.WindowAnswersAreFree := by
  intro m seg off b h
  rw [readByte_window h, writeByte_window h]
  exact ⟨rfl, rfl, rfl, fun l => ⟨rfl, rfl⟩⟩

end Sys2Proof.Machine

/-! SUPPORT. Encoding (30_encoding.md): decoding a control word's fields and encoding them are inverse, the reading of a word under a
field is the one well-formed row of that field that stands for it, and a reserved code or an illegal step target faults whatever the
rest of the word. -/

namespace Sys2Proof

/-! ### The control word and its four bytes (R52, R72) -/

@[simp] theorem decodeControl_encodeControl (cw : ControlWord) : decodeControl (encodeControl cw) = cw := by
  simp only [decodeControl, encodeControl_ipc, encodeControl_lat, encodeControl_ba, encodeControl_bb, encodeControl_alu,
    encodeControl_dst, encodeControl_wid, encodeControl_seg, encodeControl_mem, encodeControl_cjc, encodeControl_cjt,
    IpcCode.ofCode_code, LatCode.ofCode_code, BaCode.ofCode_code, BbCode.ofCode_code, AluCode.ofCode_code,
    DstCode.ofCode_code, WidCode.ofCode_code, SegCode.ofCode_code, MemCode.ofCode_code, CjcCode.ofCode_code]

/-- The fields cover the word: the record keeps each of its 32 bits (R51). -/
@[simp] theorem encodeControl_decodeControl (w : ControlBits) : encodeControl (decodeControl w) = w := by
  simp only [decodeControl, encodeControl, IpcCode.code_ofCode, LatCode.code_ofCode, BaCode.code_ofCode,
    BbCode.code_ofCode, AluCode.code_ofCode, DstCode.code_ofCode, WidCode.code_ofCode, SegCode.code_ofCode,
    MemCode.code_ofCode, CjcCode.code_ofCode]
  ext i hi
  interval_cases i <;> simp [BitVec.getLsbD_of_ge]

/-- The decoder's composition of four bytes undoes the encoder's division into them. -/
theorem controlBits_of_bytes (w : ControlBits) :
    (w.extractLsb' 24 8).setWidth 32 <<< 24 ||| (w.extractLsb' 16 8).setWidth 32 <<< 16 |||
      (w.extractLsb' 8 8).setWidth 32 <<< 8 ||| (w.extractLsb' 0 8).setWidth 32 = w := by
  ext i hi
  interval_cases i <;> simp

theorem decodeControlBytes_encode {i : Instr} {cw : ControlWord} (h : i.controlWord? = some cw) (f : Field)
    (rest : List Byte) : decodeControlBytes f (encode i ++ rest) = .ok (readAs f cw, rest) := by
  simp only [encode, h, List.cons_append, List.nil_append, decodeControlBytes, controlBits_of_bytes, decodeIn,
    decodeControl_encodeControl]

/-! ### The readings of a control word (log entries 8 and 16) -/

/-- A word that does not jump has no illegal target (R62). -/
theorem targetOutOfRange_of_cjc_none {cw : ControlWord} (h : cw.cjc = .none) : cw.targetOutOfRange = false := by
  simp [ControlWord.targetOutOfRange, h]

@[simp] theorem forceOutOfRange_of_outOfRange {cw : ControlWord} (h : cw.targetOutOfRange = true) :
    cw.forceOutOfRange = cw :=
  if_pos h

/-- `i` is a well-formed row of field `f` that stands for the control word `cw`. -/
structure IsReading (f : Field) (cw : ControlWord) (i : Instr) : Prop where
  wellFormed : i.WellFormed
  field : i.field? = some f
  controlWord : i.controlWord? = some cw

theorem readAs_isReading (f : Field) (cw : ControlWord) : IsReading f cw (readAs f cw) := by
  obtain ⟨ipc, lat, ba, bb, alu, dst, wid, seg, mem, sel, target⟩ := cw
  cases f
  case ipc => cases ipc <;> exact ⟨rfl, rfl, rfl⟩
  case lat => cases lat <;> exact ⟨rfl, rfl, rfl⟩
  case ba => cases ba <;> exact ⟨rfl, rfl, rfl⟩
  case bb => cases bb <;> exact ⟨rfl, rfl, rfl⟩
  case alu => cases alu <;> exact ⟨rfl, rfl, rfl⟩
  case dst => cases dst <;> exact ⟨rfl, rfl, rfl⟩
  case wid => cases wid <;> exact ⟨rfl, rfl, rfl⟩
  case seg => cases seg <;> exact ⟨rfl, rfl, rfl⟩
  case mem => cases mem <;> exact ⟨rfl, rfl, rfl⟩
  case cjc =>
    simp only [readAs]
    split
    · next h => exact ⟨h, rfl, congrArg some (forceOutOfRange_of_outOfRange h)⟩
    · next h =>
      cases sel
      case none => exact ⟨rfl, rfl, rfl⟩
      case cjz | cjc | cjs => exact ⟨by simpa [Instr.WellFormed, Instr.wellFormed] using h, rfl, rfl⟩

/-- No other row of the field stands for the word: the row's code already stands in a well-formed row's word, so forcing it changes
nothing, and `readAs` takes the branch of that code. -/
theorem IsReading.readAs_eq {f : Field} {cw : ControlWord} {i : Instr} (h : IsReading f cw i) : readAs f cw = i := by
  obtain ⟨hw, hf, hc⟩ := h
  cases i <;>
    simp only [Instr.WellFormed, Instr.wellFormed, Instr.field?, Instr.controlWord?, Bool.and_eq_true, Bool.not_eq_true',
      beq_iff_eq, Option.some.injEq, reduceCtorEq] at hw hf hc <;>
    subst hf hc
  case cjtRange => simp [readAs, hw]
  case cjcNone v =>
    have hrange := targetOutOfRange_of_cjc_none hw
    obtain ⟨_, _, _, _, _, _, _, _, _, _, _⟩ := v
    subst hw
    simp [readAs, hrange]
  case cjcCjz v | cjcCjc v | cjcCjs v =>
    obtain ⟨_, _, _, _, _, _, _, _, _, _, _⟩ := v
    obtain ⟨rfl, hrange⟩ := hw
    simp [readAs, hrange]
  all_goals simp [readAs, ← hw]

/-- Every row of a field stands for a control word. -/
theorem exists_controlWord_of_field {i : Instr} {f : Field} (h : i.field? = some f) : ∃ cw, i.controlWord? = some cw := by
  cases i <;> simp [Instr.field?, Instr.controlWord?] at h ⊢

/-- Settles O11: the bytes give back the control word, whose only reading under the field is the row. -/
theorem decodeReadsBackFieldRows : Obligations.DecodeReadsBackFieldRows := by
  intro i f rest hw hf
  obtain ⟨cw, hc⟩ := exists_controlWord_of_field hf
  have reading : IsReading f cw i := ⟨hw, hf, hc⟩
  rw [decodeControlBytes_encode hc, reading.readAs_eq]

/-- Settles O14: reading the word's record under the field, and the encoder's inverse. -/
theorem everyControlWordDecodes : Obligations.EveryControlWordDecodes := by
  intro w f
  obtain ⟨hw, hf, hc⟩ := readAs_isReading f (decodeControl w)
  exact ⟨hw, hf, hc, encodeControl_decodeControl w⟩

/-! ### The tables of codes (R53 to R62) -/

theorem IpcCode.table_getElem? {c : BitVec 3} {n : Nat} (h : c.toNat = n) :
    [IpcCode.none, .ipc1, .ipc2, .ipc4, .jmp, .hlt, .rtn, .reserved7][n]? = some (.ofCode c) := by
  subst h
  revert c
  decide

theorem LatCode.table_getElem? {c : BitVec 2} {n : Nat} (h : c.toNat = n) :
    [LatCode.none, .ii, .oi, .reserved3][n]? = some (.ofCode c) := by
  subst h
  revert c
  decide

theorem BaCode.table_getElem? {c : BitVec 3} {n : Nat} (h : c.toNat = n) :
    [BaCode.none, .r1, .t0, .t1, .sp, .ie, .reserved6, .reserved7][n]? = some (.ofCode c) := by
  subst h
  revert c
  decide

theorem BbCode.table_getElem? {c : BitVec 3} {n : Nat} (h : c.toNat = n) :
    [BbCode.none, .r2, .t0, .t1, .k1, .k2, .k4, .k8][n]? = some (.ofCode c) := by
  subst h
  revert c
  decide

theorem AluCode.table_getElem? {c : BitVec 3} {n : Nat} (h : c.toNat = n) :
    [AluCode.none, .add, .sub, .or, .xor, .and, .shl, .shr][n]? = some (.ofCode c) := by
  subst h
  revert c
  decide

theorem DstCode.table_getElem? {c : BitVec 3} {n : Nat} (h : c.toNat = n) :
    [DstCode.none, .r1, .r2, .t0, .t1, .sp, .ie, .reserved7][n]? = some (.ofCode c) := by
  subst h
  revert c
  decide

theorem WidCode.table_getElem? {c : BitVec 2} {n : Nat} (h : c.toNat = n) :
    [WidCode.word, .byte, .byteh, .bytez][n]? = some (.ofCode c) := by
  subst h
  revert c
  decide

theorem SegCode.table_getElem? {c : BitVec 3} {n : Nat} (h : c.toNat = n) :
    [SegCode.none, .cs, .ss, .segi, .sego, .int, .reserved6, .reserved7][n]? = some (.ofCode c) := by
  subst h
  revert c
  decide

theorem MemCode.table_getElem? {c : BitVec 2} {n : Nat} (h : c.toNat = n) :
    [MemCode.none, .rdip, .rdt, .wrt][n]? = some (.ofCode c) := by
  subst h
  revert c
  decide

theorem CjcCode.table_getElem? {c : BitVec 2} {n : Nat} (h : c.toNat = n) :
    [CjcCode.none, .cjz, .cjc, .cjs][n]? = some (.ofCode c) := by
  subst h
  revert c
  decide

theorem extractLsb'_toNat_eq_div_mod {n : Nat} (x : BitVec n) (start len : Nat) :
    (x.extractLsb' start len).toNat = x.toNat / 2 ^ start % 2 ^ len := by
  rw [BitVec.extractLsb'_toNat, Nat.shiftRight_eq_div_pow]

/-- Settles O13: each field's code is the bit-field at its place, and the option is its table's entry at that number. -/
theorem fieldLayout : Obligations.FieldLayout := by
  intro w cw n
  have code (start len : Nat) : (w.extractLsb' start len).toNat = n / 2 ^ start % 2 ^ len :=
    extractLsb'_toNat_eq_div_mod w start len
  refine ⟨IpcCode.table_getElem? (by simpa using code 0 3), LatCode.table_getElem? (code 3 2),
    BaCode.table_getElem? (code 5 3), BbCode.table_getElem? (code 8 3), AluCode.table_getElem? (code 11 3),
    DstCode.table_getElem? (code 14 3), WidCode.table_getElem? (code 17 2), SegCode.table_getElem? (code 19 3),
    MemCode.table_getElem? (code 22 2), CjcCode.table_getElem? (code 24 2), ?_⟩
  have top : n / 2 ^ 26 < 2 ^ 6 := Nat.div_lt_of_lt_mul w.isLt
  exact (code 26 6).trans (Nat.mod_eq_of_lt top)

/-- Settles O18: each word evaluates. -/
theorem writtenWordsDecode : Obligations.WrittenWordsDecode := by
  and_intros <;> rfl

end Sys2Proof

namespace Sys2Proof.Machine

/-- Settles O15: every reading is the tick of the word. -/
theorem readingsOfAWordAgree : Obligations.ReadingsOfAWordAgree := by
  intro f g w s
  have tick (k : Field) : exec (decodeIn k w) s = runWord (decodeControl w) s :=
    exec_of_controlWord (readAs_isReading k (decodeControl w)).controlWord s
  rw [tick f, tick g]

/-! ### The opcode address (R69, R140) -/

theorem toNat_append_eq_add {m n : Nat} (x : BitVec m) (y : BitVec n) : (x ++ y).toNat = x.toNat * 2 ^ n + y.toNat := by
  rw [BitVec.toNat_append, ← Nat.shiftLeft_add_eq_or_of_lt y.isLt, Nat.shiftLeft_eq]

/-- Bit 15, which tells a one-operand word (R67), as a bound. -/
theorem getLsbD_15_eq_true_iff (w : Word) : w.getLsbD 15 = true ↔ 32768 ≤ w.toNat := by
  have := w.isLt
  simp only [BitVec.getLsbD, Nat.testBit_eq_decide_div_mod_eq, decide_eq_true_eq]
  omega

/-- The flags of the state replace bits 6:4 of a one-operand word. -/
theorem mergeFlags_block_of_oneOperand (s : State) {w : Word} (h : w.getLsbD 15 = true) :
    mergeFlags s w &&& 0xFFF0 =
      (w.extractLsb' 7 9 ++ BitVec.ofBool s.sf ++ BitVec.ofBool s.cf ++ BitVec.ofBool s.zf ++ 0#4).cast rfl := by
  rw [mergeFlags, if_pos h]
  ext i hi
  rw [BitVec.getElem_cast]
  simp only [BitVec.getElem_append]
  interval_cases i <;> simp

theorem mergeFlags_block_of_twoOperand (s : State) {w : Word} (h : ¬ w.getLsbD 15 = true) :
    mergeFlags s w &&& 0xFFF0 = (w.extractLsb' 4 12 ++ 0#4).cast rfl := by
  rw [mergeFlags, if_neg h]
  ext i hi
  rw [BitVec.getElem_cast]
  simp only [BitVec.getElem_append]
  interval_cases i <;> simp

/-- Settles O17: the two layouts of R69, in numbers. -/
theorem opcodeAddress : Obligations.OpcodeAddress := by
  intro s w
  have := w.isLt
  by_cases h : w.getLsbD 15 = true
  · rw [mergeFlags_block_of_oneOperand s h, if_pos ((getLsbD_15_eq_true_iff w).mp h)]
    simp only [BitVec.toNat_cast, toNat_append_eq_add, extractLsb'_toNat_eq_div_mod, BitVec.toNat_ofBool, BitVec.toNat_ofNat]
    omega
  · rw [mergeFlags_block_of_twoOperand s h, if_neg (h ∘ (getLsbD_15_eq_true_iff w).mpr)]
    simp only [BitVec.toNat_cast, toNat_append_eq_add, extractLsb'_toNat_eq_div_mod, BitVec.toNat_ofNat]
    omega

/-! ### Reserved codes and illegal step targets (R62, R63, R174) -/

theorem validate_of_reservedCode {cw : ControlWord} (h : reservedCode cw = true) (s : State) :
    validate cw s = some .reservedCode :=
  if_pos h

theorem validate_of_targetOutOfRange {cw : ControlWord} (hc : reservedCode cw = false) (h : cw.targetOutOfRange = true)
    (s : State) : validate cw s = some .stepTargetRange := by
  simp [validate, hc, h]

/-- A fault reaches the outcome under every reading of the word (R175). -/
theorem exec_of_fault {i : Instr} {cw : ControlWord} {s : State} {reason : FaultReason} (hi : i.controlWord? = some cw)
    (hs : s.run = .fetching) (hr : cw.ipc ≠ .rtn) (hv : validate cw s = some reason) :
    exec i s = .next { s with run := .faulted reason } := by
  rw [exec_of_controlWord hi, runWord, tickWord_fault hs hr hv, raise]

theorem exec_of_reservedCode {i : Instr} {cw : ControlWord} {s : State} (hi : i.controlWord? = some cw)
    (hs : s.run = .fetching) (hr : cw.ipc ≠ .rtn) (hc : reservedCode cw = true) :
    exec i s = .next { s with run := .faulted .reservedCode } :=
  exec_of_fault hi hs hr (validate_of_reservedCode hc s)

theorem exec_of_targetOutOfRange {i : Instr} {cw : ControlWord} {s : State} (hi : i.controlWord? = some cw)
    (hs : s.run = .fetching) (hr : cw.ipc ≠ .rtn) (hc : reservedCode cw = false) (ht : cw.targetOutOfRange = true) :
    exec i s = .next { s with run := .faulted .stepTargetRange } :=
  exec_of_fault hi hs hr (validate_of_targetOutOfRange hc ht s)

@[simp] theorem forceOutOfRange_ipc (cw : ControlWord) : cw.forceOutOfRange.ipc = cw.ipc := by
  unfold ControlWord.forceOutOfRange
  split <;> rfl

@[simp] theorem reservedCode_forceOutOfRange (cw : ControlWord) : reservedCode cw.forceOutOfRange = reservedCode cw := by
  unfold ControlWord.forceOutOfRange
  split <;> rfl

/-- Settles O21: the row's own code is reserved, and `IPC` 7 is not `RTN`. -/
theorem reservedCodesFault : Obligations.ReservedCodesFault := by
  intro cw s hs
  refine ⟨exec_of_reservedCode rfl hs (by simp) rfl, fun hr => ⟨?_, ?_, ?_, ?_, ?_, ?_⟩⟩
  all_goals exact exec_of_reservedCode rfl hs hr (by simp [reservedCode])

/-- Settles O22: the row of the illegal target forces a word with one, the jump rows have the one of the carried word. -/
theorem stepTargetOutOfRangeFaults : Obligations.StepTargetOutOfRangeFaults := by
  intro cw s hs hr hc
  refine ⟨?_, fun ht => ⟨?_, ?_, ?_⟩⟩
  · exact exec_of_targetOutOfRange rfl hs (by simpa using hr) (by simpa using hc) (forceOutOfRange_outOfRange cw)
  all_goals exact exec_of_targetOutOfRange rfl hs hr hc (by simpa [ControlWord.targetOutOfRange] using ht)

end Sys2Proof.Machine

/-! SUPPORT. The sequencer (40_sequencer.md): a stopped engine, the dispatch of a step at either grain, and the tick of a control word.
A valid word ends in the state of `performWord`, whose components Laws/Tick.lean gives; the statements about single fields follow from
what the phases and the checks read of them. -/

namespace Sys2Proof.Machine

open Claims (Ready Ends TickEnd)

/-! ### A stopped engine (R80) -/

theorem engineTick_stopped {s : State} (h : s.run ≠ .fetching) : engineTick s = .next s := by
  rw [engineTick_eq, tickWord_stopped _ h]

theorem macroAt_stopped {s : State} (h : s.run ≠ .fetching) : macroAt s = none :=
  if_neg fun begins => h begins.1

theorem step_stopped {s : State} (h : s.run ≠ .fetching) : step s = .next s := by
  unfold step
  split
  · exact engineTick_stopped h
  · rw [instructionStep, macroAt_stopped h]
    exact engineTick_stopped h

theorem ticks_stopped {s : State} (h : s.run ≠ .fetching) (n : Nat) : ticks n s = .next s := by
  induction n with
  | zero => rfl
  | succ n ih => rw [ticks_succ, tickWord_stopped _ h, ih]

/-- A state that a machine's step leaves as it is stays so in every run. -/
theorem coreRun_of_step_eq (M : Host.Core) {s : M.State} (h : M.step s = .next s) (n : Nat) : M.run n s = .next s := by
  induction n with
  | zero => rfl
  | succ n ih => rw [Host.Core.run, h]; exact ih

/-- Settles O6: a step, a tick and hence any number of them leave the state as it is. -/
theorem stoppedEngineStaysStopped : Obligations.StoppedEngineStaysStopped := fun _ n h =>
  ⟨step_stopped h, ticks_stopped h n, coreRun_of_step_eq Sys2Proof.core (step_stopped h) n⟩

/-! ### The dispatch address (R76) -/

/-- The masked instruction word and the step counter do not overlap. -/
theorem dispatchAddress_eq (s : State) :
    dispatchAddress s = BitVec.ofNat 16 (s.iw.toNat / 16 * 16 + s.stepCtr.toNat) := by
  have parts : dispatchAddress s = (s.iw.extractLsb' 4 12 ++ s.stepCtr).cast rfl := by
    unfold dispatchAddress
    ext i hi
    rw [BitVec.getElem_cast, BitVec.getElem_append]
    interval_cases i <;> simp
  apply BitVec.eq_of_toNat_eq
  rw [parts, BitVec.toNat_cast, toNat_append_eq_add, extractLsb'_toNat_eq_div_mod, BitVec.toNat_ofNat]
  omega

/-- Settles O8: the tick is `exec` of one reading of the word at the dispatch address, and the readings agree. -/
theorem tickRunsDecodedWord : Obligations.TickRunsDecodedWord := by
  intro s f hgrain
  rw [← dispatchAddress_eq]
  simp only [step, hgrain, engineTick]
  exact readingsOfAWordAgree _ f (currentWord s) s

theorem macroAt_eq_some {s : State} {i : Instr} {rest : List Byte} (hrun : s.run = .fetching) (hstep : s.stepCtr = 0)
    (hfetch : currentWord s = cwFetch) (hdecode : decodeInstr (codeBytes s 6) = .ok (i, rest))
    (hram : ∀ k, k < 6 - rest.length → codeLocation s k ∉ s.mem.windows) (hblock : blockIsExample s i.instrWord = true) :
    macroAt s = some i := by
  have ram : (List.range (6 - rest.length)).all (fun k => !s.mem.windows.contains (codeLocation s k)) = true := by
    simpa using hram
  simp only [macroAt, hrun, hstep, hfetch, hdecode, ram, hblock]
  rfl

/-- Settles O9: the instruction begins here, so the step is its `exec`. -/
theorem instructionStepRunsDecoded : Obligations.InstructionStepRunsDecoded := by
  intro s i rest hgrain hrun hstep hfetch hdecode hram hblock
  have begins := macroAt_eq_some hrun hstep hfetch hdecode hram hblock
  simp only [step, hgrain, instructionStep, begins]

/-! ### The end of a valid word (R75) -/

theorem exec_of_ready {i : Instr} {cw : ControlWord} {s : State} (hi : i.controlWord? = some cw) (h : Ready cw s) :
    exec i s = .next (performWord cw s) := by
  obtain ⟨hrun, hrtn, hvalid⟩ := h
  rw [exec_of_controlWord hi, runWord, tickWord_valid hrun hrtn hvalid]

theorem bus_eq_memoryPhase (cw : ControlWord) (s : State) (d : Word) :
    Claims.bus cw s (segValue cw.seg s) d = memoryPhase cw s d := by
  unfold Claims.bus memoryPhase
  cases cw.mem <;> rfl

theorem dataBus_eq_dataOf (cw : ControlWord) (s : State) : Claims.dataBus cw s = dataOf cw s :=
  congrArg Prod.fst (bus_eq_memoryPhase cw s _)

theorem widthWrite_toNat_eq_merged (wid : WidCode) (old d : Word) :
    (widthWrite wid old d).toNat = Claims.merged wid old d := by
  rw [widthWrite_toNat]
  cases wid <;> rfl

theorem ipControl_eq_ite (ipc : IpcCode) (d ip : Word) :
    ipControl ipc d ip = if ipc = .ipc1 then ip + 1 else if ipc = .ipc2 then ip + 2 else if ipc = .ipc4 then ip + 4
      else if ipc = .jmp then d else ip := by
  cases ipc <;> rfl

theorem haltControl_eq_ite (ipc : IpcCode) (run : RunState) :
    haltControl ipc run = if ipc = .hlt then .halted else run := by
  cases ipc <;> rfl

theorem jumpTaken_iff (sel : CjcCode) (s : State) :
    jumpTaken sel s = true ↔ (sel = .cjz ∧ s.zf) ∨ (sel = .cjc ∧ s.cf) ∨ (sel = .cjs ∧ s.sf) := by
  cases sel <;> simp [jumpTaken]

theorem nextStep_eq_ite (cw : ControlWord) (s : State) :
    nextStep cw s = if (cw.cjc = .cjz ∧ s.zf) ∨ (cw.cjc = .cjc ∧ s.cf) ∨ (cw.cjc = .cjs ∧ s.sf) then
      BitVec.ofNat 4 cw.cjt.toNat else s.stepCtr + 1 :=
  if_congr (jumpTaken_iff cw.cjc s) rfl rfl

/-- The phases give every component of the state at the end of a tick. -/
theorem performWord_tickEnd (cw : ControlWord) {s : State} (hrun : s.run = .fetching) :
    TickEnd cw s (aluPhase cw s) (dataOf cw s) (memoryPhase cw s (aluPhase cw s).d).2 (performWord cw s) where
  iw := performWord_iw cw s
  ow := performWord_ow cw s
  regs r := by
    rw [performWord_getReg, apply_ite BitVec.toNat, apply_ite BitVec.toNat, widthWrite_toNat_eq_merged]
  t0 := performWord_t0 cw s
  t1 := performWord_t1 cw s
  ie := performWord_ie cw s
  zf := performWord_zf cw s
  cf := performWord_cf cw s
  sf := performWord_sf cw s
  ip := ipControl_eq_ite cw.ipc (dataOf cw s) s.ip
  stepCtr := nextStep_eq_ite cw s
  run := hrun ▸ haltControl_eq_ite cw.ipc s.run
  mem := performWord_mem cw s
  rom := performWord_rom cw s
  grain := performWord_grain cw s

theorem performWord_ends (cw : ControlWord) {s : State} (hrun : s.run = .fetching) :
    Ends cw s (busA cw.ba cw.wid s) (busB cw.bb cw.wid s) (segValue cw.seg s) (performWord cw s) := by
  rw [Ends, bus_eq_memoryPhase]
  exact performWord_tickEnd cw hrun

/-- Settles O23: a valid word runs its phases, which give every component. -/
theorem validWordEndsAsItsPhasesSay : Obligations.ValidWordEndsAsItsPhasesSay := fun _ cw s hi ready =>
  ⟨performWord cw s, exec_of_ready hi ready, performWord_ends cw ready.1⟩

/-! ### The write sets (40_sequencer.md section 5) -/

theorem byteAt_congr {m n : Memory} (h : m.cells = n.cells) (l : Nat) : m.byteAt l = n.byteAt l := by
  rw [Memory.byteAt, Memory.byteAt, h]

theorem writeByte_byteAt_ne {m : Memory} (hm : m.wf = true) {seg off : Word} {l : Nat} (hl : l ≠ m.locate seg off)
    (b : Byte) : (m.writeByte seg off b).byteAt l = m.byteAt l := by
  rw [writeByte_byteAt hm, if_neg fun h => hl h.2.symm]

/-- A write changes no byte but those at its one or two locations, be they RAM-like or windows. -/
theorem write_byteAt_ne {m : Memory} (hm : m.wf = true) {wid : WidCode} {seg off : Word} {l : Nat}
    (hl : l ≠ m.locate seg off) (hl' : wid = .word → l ≠ m.locate seg (off + 1)) (v : Word) :
    (m.write wid seg off v).byteAt l = m.byteAt l := by
  by_cases hwid : wid = .word
  · subst hwid
    rw [write_word, writeByte_byteAt_ne (writeByte_wf hm ..) (by simpa using hl' rfl), writeByte_byteAt_ne hm hl]
  · rw [write_of_ne_word hwid, writeByte_byteAt_ne hm hl]

theorem memoryPhase_byteAt_of_ne_wrt {cw : ControlWord} (h : cw.mem ≠ .wrt) (s : State) (d : Word) (l : Nat) :
    (memoryPhase cw s d).2.byteAt l = s.mem.byteAt l := by
  obtain hm | ⟨off, hm⟩ | ⟨hw, -⟩ := memoryPhase_mem cw s d
  · rw [hm]
  · rw [hm, byteAt_congr (read_cells ..)]
  · exact absurd hw h

theorem memoryPhase_of_wrt {cw : ControlWord} (h : cw.mem = .wrt) (s : State) (d : Word) :
    memoryPhase cw s d = (d, s.mem.write cw.wid (segValue cw.seg s) s.t0 d) := by
  simp only [memoryPhase, h, addressBus]

/-- What a control word may write of each component, by the component's own field (R96). -/
structure WithinWriteSets (cw : ControlWord) (s t : State) : Prop where
  iw : cw.lat ≠ .ii → t.iw = s.iw
  ow : cw.lat ≠ .oi → t.ow = s.ow
  regs : ∀ r, ¬ (cw.dst = .r1 ∧ Reg.ofIndex s.index1 = some r) → ¬ (cw.dst = .r2 ∧ Reg.ofIndex s.index2 = some r) →
    ¬ (cw.dst = .sp ∧ r = .sp) → t.getReg r = s.getReg r
  t0 : cw.dst ≠ .t0 → t.t0 = s.t0
  t1 : cw.dst ≠ .t1 → t.t1 = s.t1
  ie : cw.dst ≠ .ie → t.ie = s.ie
  flags : cw.alu = .none → t.zf = s.zf ∧ t.cf = s.cf ∧ t.sf = s.sf
  ip : cw.ipc ≠ .ipc1 → cw.ipc ≠ .ipc2 → cw.ipc ≠ .ipc4 → cw.ipc ≠ .jmp → t.ip = s.ip
  noWrite : cw.mem ≠ .wrt → ∀ l, t.mem.byteAt l = s.mem.byteAt l
  write : cw.mem = .wrt → ∀ l, l ≠ s.mem.locate (segValue cw.seg s) s.t0 →
    (cw.wid = .word → l ≠ s.mem.locate (segValue cw.seg s) (s.t0 + 1)) → s.mem.wf = true →
    t.mem.byteAt l = s.mem.byteAt l
  rom : t.rom = s.rom
  grain : t.grain = s.grain

/-- A change of the step and the run state alone is within every word's write sets. -/
theorem WithinWriteSets.of_sequencer (cw : ControlWord) (s : State) (k : Nibble) (run : RunState) :
    WithinWriteSets cw s { s with stepCtr := k, run := run } := by
  constructor <;> intros
  case regs r _ _ _ => cases r <;> rfl
  case flags => exact ⟨rfl, rfl, rfl⟩
  all_goals rfl

/-- A valid word's phases keep to its write sets. -/
theorem performWord_withinWriteSets (cw : ControlWord) (s : State) : WithinWriteSets cw s (performWord cw s) where
  iw h := by rw [performWord_iw, if_neg h]
  ow h := by rw [performWord_ow, if_neg h]
  regs r h1 h2 hsp := by rw [performWord_getReg, if_neg (not_or.mpr ⟨h1, h2⟩), if_neg hsp]
  t0 h := by rw [performWord_t0, if_neg h]
  t1 h := by rw [performWord_t1, if_neg h]
  ie h := by rw [performWord_ie, if_neg h]
  flags h := by rw [performWord_zf, performWord_cf, performWord_sf, if_pos h, if_pos h, if_pos h]; exact ⟨rfl, rfl, rfl⟩
  ip h1 h2 h4 hj := by rw [performWord_ip, ipControl_eq_ite, if_neg h1, if_neg h2, if_neg h4, if_neg hj]
  noWrite h l := by rw [performWord_mem, memoryPhase_byteAt_of_ne_wrt h]
  write h l hl hl' hm := by rw [performWord_mem, memoryPhase_of_wrt h, write_byteAt_ne hm hl hl']
  rom := performWord_rom cw s
  grain := performWord_grain cw s

theorem tickWord_withinWriteSets (cw : ControlWord) (s : State) : WithinWriteSets cw s (tickWord cw s) := by
  obtain ⟨-, h⟩ | ⟨-, -, h⟩ | ⟨-, -, f, -, h⟩ | ⟨-, -, -, h⟩ := tickWord_cases cw s <;> rw [h]
  · exact .of_sequencer cw s s.stepCtr s.run
  · exact .of_sequencer cw s 0 s.run
  · exact .of_sequencer cw s s.stepCtr (.faulted f)
  · exact performWord_withinWriteSets cw s

/-- Settles O24: the tick of the word, in each of its four outcomes, keeps to the write sets. -/
theorem writeSetOfEachField : Obligations.WriteSetOfEachField := by
  intro i cw s t hi h
  rw [exec_of_controlWord hi] at h
  cases h
  obtain ⟨iw, ow, regs, t0, t1, ie, flags, ip, noWrite, write, rom, grain⟩ := tickWord_withinWriteSets cw s
  exact ⟨iw, ow, regs, t0, t1, ie, flags, ip, noWrite, write, rom, grain⟩

/-! ### RTN (R81) -/

theorem exec_of_rtn {i : Instr} {cw : ControlWord} {s : State} (hi : i.controlWord? = some cw) (hr : cw.ipc = .rtn)
    (hs : s.run = .fetching) : exec i s = .next { s with stepCtr := 0 } := by
  rw [exec_of_controlWord hi, runWord, tickWord_rtn hs hr]

/-- Settles O25: the row forces `RTN` into its word. -/
theorem returnOnlyResetsTheStep : Obligations.ReturnOnlyResetsTheStep :=
  ⟨fun _ _ hs => exec_of_rtn rfl rfl hs, fun _ _ _ hi hr hs => exec_of_rtn hi hr hs⟩

/-! ### The rows of IPC (R82 to R87) -/

/-- The phases read IPC for IP and the run state only. -/
theorem performWord_withIpc (cw : ControlWord) (s : State) (c : IpcCode) :
    performWord { cw with ipc := c } s =
      { performWord { cw with ipc := .none } s with
        ip := ipControl c (dataOf cw s) s.ip
        run := haltControl c s.run } := rfl

/-- The checks read IPC for the reserved code only. -/
theorem validate_withIpc (cw : ControlWord) (s : State) {c : IpcCode} (h : c ≠ .reserved7) :
    validate { cw with ipc := c } s = validate { cw with ipc := .none } s := by
  cases c
  case reserved7 => exact absurd rfl h
  all_goals rfl

theorem ready_withIpc {cw : ControlWord} {s : State} (h : Ready { cw with ipc := .none } s) {c : IpcCode}
    (hrtn : c ≠ .rtn) (hres : c ≠ .reserved7) : Ready { cw with ipc := c } s := by
  obtain ⟨hrun, -, hvalid⟩ := h
  exact ⟨hrun, hrtn, (validate_withIpc cw s hres).trans hvalid⟩

/-- A code of IPC that does not halt sets IP alone. -/
theorem exec_of_ready_withIpc {i : Instr} {cw : ControlWord} {s : State} {c : IpcCode} {ip : Word}
    (hi : i.controlWord? = some { cw with ipc := c }) (h : Ready { cw with ipc := .none } s)
    (hc : c ∉ [.rtn, .reserved7, .hlt]) (hip : ipControl c (dataOf cw s) s.ip = ip) :
    exec i s = .next { performWord { cw with ipc := .none } s with ip := ip } := by
  simp only [List.mem_cons, List.not_mem_nil, or_false, not_or] at hc
  obtain ⟨hrtn, hres, hhlt⟩ := hc
  rw [exec_of_ready hi (ready_withIpc h hrtn hres), performWord_withIpc, hip, haltControl_eq_ite, if_neg hhlt]
  rfl

/-- Settles O26: the rows of IPC end alike but for IP and the run state, and a fault comes before the halt. -/
theorem ipControlRows : Obligations.IpControlRows := by
  intro cw s
  refine ⟨fun hs f hf => exec_of_fault rfl hs (by simp) hf, fun h => ?_⟩
  refine ⟨performWord { cw with ipc := .none } s, exec_of_ready rfl h, rfl, h.1, ?_, ?_, ?_, ?_, ?_⟩
  · exact exec_of_ready_withIpc rfl h (by decide) (BitVec.add_def s.ip 1)
  · exact exec_of_ready_withIpc rfl h (by decide) (BitVec.add_def s.ip 2)
  · exact exec_of_ready_withIpc rfl h (by decide) (BitVec.add_def s.ip 4)
  · exact exec_of_ready_withIpc rfl h (by decide) (dataBus_eq_dataOf cw s).symm
  · exact exec_of_ready rfl (ready_withIpc (c := .hlt) h (by decide) (by decide))

/-! ### The rows of CJC (R89 to R92) -/

/-- The phases read CJC for the step only. -/
theorem performWord_withCjc (cw : ControlWord) (s : State) (c : CjcCode) :
    performWord { cw with cjc := c } s =
      { performWord { cw with cjc := .none } s with
        stepCtr := if jumpTaken c s then BitVec.ofNat 4 cw.cjt.toNat else s.stepCtr + 1 } := rfl

theorem reservedCode_eq_false_of_validate_eq_none {cw : ControlWord} {s : State} (h : validate cw s = none) :
    reservedCode cw = false :=
  eq_false_of_ne_true fun hres => by simp [validate_of_reservedCode hres] at h

theorem targetOutOfRange_withCjc {cw : ControlWord} {c : CjcCode} (hc : c ≠ .none) :
    ({ cw with cjc := c } : ControlWord).targetOutOfRange = decide (16 ≤ cw.cjt.toNat) := by
  simp [ControlWord.targetOutOfRange, hc]

/-- The checks read CJC for the step target only. -/
theorem validate_withCjc {cw : ControlWord} (s : State) (c : CjcCode) (h : cw.cjt.toNat < 16) :
    validate { cw with cjc := c } s = validate { cw with cjc := .none } s := by
  have inRange (c : CjcCode) : ({ cw with cjc := c } : ControlWord).targetOutOfRange = false := by
    simp [ControlWord.targetOutOfRange, h]
  simp only [validate, inRange]
  rfl

theorem exec_of_ready_withCjc (c : CjcCode) {i : Instr} {cw : ControlWord} {s : State}
    (hi : i.controlWord? = some { cw with cjc := c }) (h : Ready { cw with cjc := .none } s) (ht : cw.cjt.toNat < 16) :
    exec i s = .next { performWord { cw with cjc := .none } s with
      stepCtr := if jumpTaken c s then BitVec.ofNat 4 cw.cjt.toNat else s.stepCtr + 1 } := by
  obtain ⟨hrun, hrtn, hvalid⟩ := h
  rw [exec_of_ready hi ⟨hrun, hrtn, (validate_withCjc s c ht).trans hvalid⟩, performWord_withCjc]

theorem exec_of_ready_withCjc_outOfRange {c : CjcCode} {i : Instr} {cw : ControlWord} {s : State}
    (hi : i.controlWord? = some { cw with cjc := c }) (h : Ready { cw with cjc := .none } s) (hc : c ≠ .none)
    (ht : 16 ≤ cw.cjt.toNat) : exec i s = .next { s with run := .faulted .stepTargetRange } := by
  obtain ⟨hrun, hrtn, hvalid⟩ := h
  have hcode : reservedCode { cw with cjc := .none } = false := reservedCode_eq_false_of_validate_eq_none hvalid
  exact exec_of_targetOutOfRange hi hrun hrtn hcode
    ((targetOutOfRange_withCjc hc).trans (decide_eq_true ht))

/-- Settles O27: the rows of CJC differ in the step alone, and an illegal target faults before any phase. -/
theorem stepJumpRows : Obligations.StepJumpRows := by
  intro cw s h
  refine ⟨performWord { cw with cjc := .none } s, exec_of_ready rfl h, BitVec.add_def s.stepCtr 1, fun ht => ?_,
    fun ht => ?_⟩
  · exact ⟨exec_of_ready_withCjc .cjz rfl h ht, exec_of_ready_withCjc .cjc rfl h ht, exec_of_ready_withCjc .cjs rfl h ht⟩
  · exact ⟨exec_of_ready_withCjc_outOfRange (c := .cjz) rfl h (by decide) ht,
      exec_of_ready_withCjc_outOfRange (c := .cjc) rfl h (by decide) ht,
      exec_of_ready_withCjc_outOfRange (c := .cjs) rfl h (by decide) ht⟩

end Sys2Proof.Machine

/-! SUPPORT. A step at the instruction grain is a run of ticks (40_sequencer.md R97, 44_macro_instructions.md R149, R150). In order: what
the decoder of instruction words reads, the procedure in the block where a word is latched, the bytes at CS:IP, the words of a
block and the run through them, one rule for the tick of each word of the example ROM, and each instruction as the ticks of its
procedure. -/

namespace Sys2Proof

/-! ### What the decoder of instruction words reads (R70, R152) -/

/-- `i` is a well-formed instruction word with its operands, and `bs` is its bytes followed by `rest`. -/
structure ReadsAs (bs : List Byte) (i : Instr) (rest : List Byte) : Prop where
  wellFormed : i.WellFormed
  noControlWord : i.controlWord? = none
  bytes : highByte i.instrWord :: lowByte i.instrWord :: (i.operandBytes ++ rest) = bs

theorem takeByte_eq_ok {name : String} {k : Byte → Instr} {bs rest : List Byte} {i : Instr}
    (h : takeByte name k bs = .ok (i, rest)) : ∃ b, i = k b ∧ bs = b :: rest := by
  cases bs with
  | nil => cases h
  | cons b tail => cases h; exact ⟨b, rfl, rfl⟩

theorem takeWord_eq_ok {name : String} {k : Word → Instr} {bs rest : List Byte} {i : Instr}
    (h : takeWord name k bs = .ok (i, rest)) : ∃ v, i = k v ∧ bs = highByte v :: lowByte v :: rest := by
  match bs, h with
  | high :: low :: _, rfl => exact ⟨wordOfBytes high low, rfl, by simp⟩

theorem takeTwoWords_eq_ok {name : String} {k : Word → Word → Instr} {bs rest : List Byte} {i : Instr}
    (h : takeTwoWords name k bs = .ok (i, rest)) :
    ∃ v v', i = k v v' ∧ bs = highByte v :: lowByte v :: highByte v' :: lowByte v' :: rest := by
  match bs, h with
  | high :: low :: high' :: low' :: _, rfl => exact ⟨wordOfBytes high low, wordOfBytes high' low', rfl, by simp⟩

/-- A two-operand word is its block with its index (R66). -/
theorem withIndex_of_block {w block : Word} (h : w &&& 0xFFF0 = block) : withIndex block (w.extractLsb' 0 4) = w := by
  subst h
  unfold withIndex
  ext i hi
  interval_cases i <;> simp

/-- A one-operand word is its group with its flags slot and its index (R67). -/
theorem oneOperandWord_of_group {w group : Word} (h : w &&& 0xFF80 = group) :
    oneOperandWord group (w.extractLsb' 4 3) (w.extractLsb' 0 4) = w := by
  subst h
  unfold oneOperandWord
  ext i hi
  interval_cases i <;> simp

theorem ReadsAs.of_instrWord {w : Word} {i : Instr} {tail rest : List Byte} (hw : i.instrWord = w) (hi : i.WellFormed)
    (hc : i.controlWord? = none) (htail : tail = i.operandBytes ++ rest) :
    ReadsAs (highByte w :: lowByte w :: tail) i rest :=
  ⟨hi, hc, by rw [hw, htail]⟩

/-- The block or group of the word selects the row, and the row's operands are the bytes that follow. -/
theorem decodeOperands_readsAs {w : Word} {tail rest : List Byte} {i : Instr} (h : decodeOperands w tail = .ok (i, rest)) :
    ReadsAs (highByte w :: lowByte w :: tail) i rest := by
  unfold decodeOperands at h
  obtain ⟨hb, h⟩ | ⟨notNop, h⟩ := ite_eq_iff.mp h
  · cases h
    exact .of_instrWord (withIndex_of_block hb) rfl rfl rfl
  obtain ⟨hb, h⟩ | ⟨notHlt, h⟩ := ite_eq_iff.mp h
  · cases h
    exact .of_instrWord (withIndex_of_block hb) rfl rfl rfl
  obtain ⟨hb, h⟩ | ⟨notMovRegImm16, h⟩ := ite_eq_iff.mp h
  · obtain ⟨v, rfl, rfl⟩ := takeWord_eq_ok h
    exact .of_instrWord (withIndex_of_block hb) rfl rfl rfl
  obtain ⟨hb, h⟩ | ⟨notMovRegImm8, h⟩ := ite_eq_iff.mp h
  · obtain ⟨v, rfl, rfl⟩ := takeByte_eq_ok h
    exact .of_instrWord (withIndex_of_block hb) rfl rfl rfl
  obtain ⟨hb, h⟩ | ⟨notMovRegReg, h⟩ := ite_eq_iff.mp h
  · obtain ⟨v, rfl, rfl⟩ := takeByte_eq_ok h
    exact .of_instrWord (withIndex_of_block hb) rfl rfl rfl
  obtain ⟨hb, h⟩ | ⟨notMovMemImm, h⟩ := ite_eq_iff.mp h
  · obtain ⟨v, v', rfl, rfl⟩ := takeTwoWords_eq_ok h
    exact .of_instrWord (withIndex_of_block hb) rfl rfl rfl
  obtain ⟨hb, h⟩ | ⟨notMovRegMemw, h⟩ := ite_eq_iff.mp h
  · obtain ⟨v, rfl, rfl⟩ := takeByte_eq_ok h
    exact .of_instrWord (withIndex_of_block hb) rfl rfl rfl
  obtain ⟨hb, h⟩ | ⟨notMovRegMemb, h⟩ := ite_eq_iff.mp h
  · obtain ⟨v, rfl, rfl⟩ := takeByte_eq_ok h
    exact .of_instrWord (withIndex_of_block hb) rfl rfl rfl
  obtain ⟨hb, h⟩ | ⟨notAddRegReg, h⟩ := ite_eq_iff.mp h
  · obtain ⟨v, rfl, rfl⟩ := takeByte_eq_ok h
    exact .of_instrWord (withIndex_of_block hb) rfl rfl rfl
  obtain ⟨hb, h⟩ | ⟨notAddRegImm16, h⟩ := ite_eq_iff.mp h
  · obtain ⟨v, rfl, rfl⟩ := takeWord_eq_ok h
    exact .of_instrWord (withIndex_of_block hb) rfl rfl rfl
  obtain ⟨hb, h⟩ | ⟨notSubRegReg, h⟩ := ite_eq_iff.mp h
  · obtain ⟨v, rfl, rfl⟩ := takeByte_eq_ok h
    exact .of_instrWord (withIndex_of_block hb) rfl rfl rfl
  obtain ⟨hb, h⟩ | ⟨notSubRegImm16, h⟩ := ite_eq_iff.mp h
  · obtain ⟨v, rfl, rfl⟩ := takeWord_eq_ok h
    exact .of_instrWord (withIndex_of_block hb) rfl rfl rfl
  obtain ⟨hb, h⟩ | ⟨notShlRegImm8, h⟩ := ite_eq_iff.mp h
  · obtain ⟨v, rfl, rfl⟩ := takeByte_eq_ok h
    exact .of_instrWord (withIndex_of_block hb) rfl rfl rfl
  obtain ⟨hb, h⟩ | ⟨notJmp, h⟩ := ite_eq_iff.mp h
  · obtain ⟨v, rfl, rfl⟩ := takeWord_eq_ok h
    exact .of_instrWord (oneOperandWord_of_group hb) rfl rfl rfl
  obtain ⟨hb, h⟩ | ⟨notJz, h⟩ := ite_eq_iff.mp h
  · obtain ⟨v, rfl, rfl⟩ := takeWord_eq_ok h
    exact .of_instrWord (oneOperandWord_of_group hb) rfl rfl rfl
  obtain ⟨hb, h⟩ | ⟨notJnz, h⟩ := ite_eq_iff.mp h
  · obtain ⟨v, rfl, rfl⟩ := takeWord_eq_ok h
    exact .of_instrWord (oneOperandWord_of_group hb) rfl rfl rfl
  cases h
  refine .of_instrWord rfl ?_ rfl rfl
  simp only [Instr.WellFormed, Instr.wellFormed, isDeclared, declaredBlocks, declaredOneOperand, List.contains_cons,
    List.contains_nil, Bool.or_false, Bool.not_eq_true', Bool.or_eq_false_iff, beq_eq_false_iff_ne]
  exact ⟨⟨notNop, notHlt, notMovRegImm16, notMovRegImm8, notMovRegReg, notMovMemImm, notMovRegMemw, notMovRegMemb,
    notAddRegReg, notAddRegImm16, notSubRegReg, notSubRegImm16, notShlRegImm8⟩, notJmp, notJz, notJnz⟩

/-- Whatever the decoder of instruction words reads is well-formed and encodes to the bytes read. -/
theorem decodeInstr_readsAs {bs rest : List Byte} {i : Instr} (h : decodeInstr bs = .ok (i, rest)) : ReadsAs bs i rest := by
  match bs with
  | [] | [_] => cases h
  | high :: low :: tail => simpa using decodeOperands_readsAs h

end Sys2Proof

namespace Sys2Proof.Machine

/-! ### The block of an instruction word (R69, R150) -/

/-- The procedure of an instruction's block, the flag Z choosing between those of a conditional jump (R153 to R169). -/
def procedureOf (z : Bool) : Instr → List ControlBits
  | .nop _ => [cwFetch, cwRtn]
  | .movRegImm16 _ _ => [cwFetch, cwRdwR1, cwRtn]
  | .movRegImm8 _ _ => [cwFetch, cwRdbR1, cwRtn]
  | .movRegReg _ _ => [cwFetch, cwRdbOi, cwMovR2R1, cwRtn]
  | .movMemImm _ _ _ => [cwFetch, cwRdwT0, cwRdwT1, cwWrT1AtT0Segi, cwRtn]
  | .movRegMemw _ _ => [cwFetch, cwRdbOi, cwR2ToT0, cwRdAtT0SegoR1, cwRtn]
  | .movRegMemb _ _ => [cwFetch, cwRdbOi, cwR2ToT0, cwRdbzAtT0SegoR1, cwRtn]
  | .addRegReg _ _ => [cwFetch, cwRdbOi, cwAddR1R2, cwRtn]
  | .addRegImm16 _ _ => [cwFetch, cwRdwT1, cwAddR1T1, cwRtn]
  | .subRegReg _ _ => [cwFetch, cwRdbOi, cwSubR1R2, cwRtn]
  | .subRegImm16 _ _ => [cwFetch, cwRdwT1, cwSubR1T1, cwRtn]
  | .shlRegImm8 _ _ => [cwFetch, cwRdbT1, cwShlR1T1, cwRtn]
  | .jmp _ _ _ => [cwFetch, cwJmpImm, cwRtn]
  | .jz _ _ _ => if z then [cwFetch, cwJmpImm, cwRtn] else [cwFetch, cwSkip2, cwRtn]
  | .jnz _ _ _ => if z then [cwFetch, cwSkip2, cwRtn] else [cwFetch, cwJmpImm, cwRtn]
  | _ => [cwFetch, cwHlt]

/-- The opcode address of an instruction word latched now (R69). -/
def latchedBlock (s : State) (w : Word) : Word := mergeFlags s w &&& 0xFFF0

theorem mergeFlags_of_twoOperand (s : State) {w : Word} (h : w.getLsbD 15 = false) : mergeFlags s w = w :=
  if_neg (by rw [h]; exact Bool.false_ne_true)

/-- The flags replace no bit of a group (R140). -/
theorem latchedBlock_group (s : State) (w : Word) : latchedBlock s w &&& 0xFF80 = w &&& 0xFF80 := by
  unfold latchedBlock mergeFlags
  split <;> ext i hi <;> interval_cases i <;> simp

/-- Bit 4 of the opcode address of a one-operand word is Z (R140). -/
theorem latchedBlock_zeroFlag (s : State) {w : Word} (h : w.getLsbD 15 = true) : (latchedBlock s w).getLsbD 4 = s.zf := by
  rw [latchedBlock, mergeFlags, if_pos h]
  simp

/-- The flags replace no bit of an index (R140). -/
theorem mergeFlags_index (s : State) (w : Word) : (mergeFlags s w).extractLsb' 0 4 = w.extractLsb' 0 4 := by
  unfold mergeFlags
  split <;> ext i hi <;> interval_cases i <;> simp

theorem withIndex_index {block : Word} (h : block &&& 0x7FF0 = block) (r : Nibble) :
    (withIndex block r).extractLsb' 0 4 = r := by
  rw [← h]
  unfold withIndex
  ext i hi
  interval_cases i <;> simp

theorem withIndex_bit15 {block : Word} (h : block &&& 0x7FF0 = block) (r : Nibble) :
    (withIndex block r).getLsbD 15 = false := by
  rw [← h]
  simp [withIndex]

/-- A two-operand word is latched in its own block. -/
theorem latchedBlock_withIndex (s : State) {block : Word} (h : block &&& 0x7FF0 = block) (r : Nibble) :
    latchedBlock s (withIndex block r) = block := by
  rw [latchedBlock, mergeFlags_of_twoOperand s (withIndex_bit15 h r), ← h]
  unfold withIndex
  ext i hi
  interval_cases i <;> simp

theorem oneOperandWord_group_and {group : Word} (h : group &&& 0xFF80 = group) (slot : BitVec 3) (low : Nibble) :
    oneOperandWord group slot low &&& 0xFF80 = group := by
  rw [← h]
  unfold oneOperandWord
  ext i hi
  interval_cases i <;> simp

/-! ### The procedure of a block (R150, R152) -/

/-- Outside the two-operand blocks the group decides. -/
theorem exampleBlock_of_not_declaredBlock {b : Word} (h : b ∉ declaredBlocks) :
    exampleBlock b =
      if b &&& 0xFF80 = 0x9580 then [cwFetch, cwJmpImm, cwRtn] else
      if b &&& 0xFF80 = 0x9980 then (if b.getLsbD 4 then [cwFetch, cwJmpImm, cwRtn] else [cwFetch, cwSkip2, cwRtn]) else
      if b &&& 0xFF80 = 0x9D80 then (if b.getLsbD 4 then [cwFetch, cwSkip2, cwRtn] else [cwFetch, cwJmpImm, cwRtn]) else
      [cwFetch, cwHlt] := by
  simp only [declaredBlocks, List.mem_cons, List.not_mem_nil, or_false, not_or] at h
  simp only [exampleBlock, h, if_false]

theorem not_declaredBlock_of_bit15 {b : Word} (h : b.getLsbD 15 = true) : b ∉ declaredBlocks := by
  have low : (declaredBlocks.all fun c => !c.getLsbD 15) = true := by decide
  intro hb
  have clear : (!b.getLsbD 15) = true := List.all_eq_true.mp low b hb
  rw [h] at clear
  cases clear

theorem latchedBlock_bit15 (s : State) (w : Word) : (latchedBlock s w).getLsbD 15 = w.getLsbD 15 := by
  simpa using congrArg (·.getLsbD 15) (latchedBlock_group s w)

/-- A one-operand word is latched in one of the eight blocks of its group, in one with Z in bit 4. -/
theorem exampleBlock_oneOperand (s : State) {group : Word} (hg : group &&& 0xFF80 = group) (h15 : group.getLsbD 15 = true)
    (slot : BitVec 3) (low : Nibble) :
    exampleBlock (latchedBlock s (oneOperandWord group slot low)) =
      if group = 0x9580 then [cwFetch, cwJmpImm, cwRtn] else
      if group = 0x9980 then (if s.zf then [cwFetch, cwJmpImm, cwRtn] else [cwFetch, cwSkip2, cwRtn]) else
      if group = 0x9D80 then (if s.zf then [cwFetch, cwSkip2, cwRtn] else [cwFetch, cwJmpImm, cwRtn]) else
      [cwFetch, cwHlt] := by
  have bit15 : (oneOperandWord group slot low).getLsbD 15 = true := by
    rw [oneOperandWord, BitVec.getLsbD_or, BitVec.getLsbD_or, h15]
    rfl
  rw [exampleBlock_of_not_declaredBlock (not_declaredBlock_of_bit15 ((latchedBlock_bit15 ..).trans bit15)),
    latchedBlock_group, oneOperandWord_group_and hg, latchedBlock_zeroFlag s bit15]

/-- An undeclared word is latched in an undeclared block, whatever the flags. -/
theorem latchedBlock_undeclared (s : State) {w : Word} (h : isDeclared w = false) :
    latchedBlock s w ∉ declaredBlocks ∧ latchedBlock s w &&& 0xFF80 ∉ declaredOneOperand := by
  simp only [isDeclared, Bool.or_eq_false_iff, List.contains_eq_mem, decide_eq_false_iff_not] at h
  obtain ⟨hblock, hgroup⟩ := h
  refine ⟨?_, by rwa [latchedBlock_group]⟩
  cases h15 : w.getLsbD 15
  · rwa [latchedBlock, mergeFlags_of_twoOperand s h15]
  · exact not_declaredBlock_of_bit15 ((latchedBlock_bit15 s w).trans h15)

/-- The block in which an instruction word is latched holds its instruction's procedure. -/
theorem exampleBlock_latchedBlock {i : Instr} (hi : i.WellFormed) (hc : i.controlWord? = none) (s : State) :
    exampleBlock (latchedBlock s i.instrWord) = procedureOf s.zf i := by
  cases i
  case nop | hlt | movRegImm16 | movRegImm8 | movRegReg | movMemImm | movRegMemw | movRegMemb | addRegReg
      | addRegImm16 | subRegReg | subRegImm16 | shlRegImm8 =>
    rw [Instr.instrWord, latchedBlock_withIndex s (by decide)]
    rfl
  case jmp slot low target => exact exampleBlock_oneOperand s (group := 0x9580) (by decide) (by decide) slot low
  case jz slot low target => exact exampleBlock_oneOperand s (group := 0x9980) (by decide) (by decide) slot low
  case jnz slot low target => exact exampleBlock_oneOperand s (group := 0x9D80) (by decide) (by decide) slot low
  case illegal word =>
    obtain ⟨hb, hgroup⟩ := latchedBlock_undeclared s (w := word) (by simpa [Instr.WellFormed, Instr.wellFormed] using hi)
    simp only [declaredOneOperand, List.mem_cons, List.not_mem_nil, or_false, not_or] at hgroup
    rw [Instr.instrWord, exampleBlock_of_not_declaredBlock hb]
    simp only [hgroup, if_false]
    rfl
  all_goals cases hc

/-! ### The bytes at CS:IP (R70) -/

/-- RAM-like locations hold the bytes from an offset on, so a read gives them and changes nothing. -/
def CodeAt (m : Memory) (seg : Word) : Word → List Byte → Prop
  | _, [] => True
  | off, b :: bs => m.readByte seg off = (b, m) ∧ CodeAt m seg (off + 1) bs

theorem CodeAt.byte {m : Memory} {seg off : Word} {b : Byte} {bs : List Byte} (h : CodeAt m seg off (b :: bs))
    {wid : WidCode} (hwid : wid ≠ .word) : m.read wid seg off = (b.setWidth 16, m) ∧ CodeAt m seg (off + 1) bs := by
  obtain ⟨hb, htail⟩ := h
  exact ⟨by rw [read_of_ne_word hwid, hb], htail⟩

theorem CodeAt.word {m : Memory} {seg off v : Word} {bs : List Byte}
    (h : CodeAt m seg off (highByte v :: lowByte v :: bs)) :
    m.read .word seg off = (v, m) ∧ CodeAt m seg (off + 2) bs := by
  obtain ⟨high, low, htail⟩ := h
  have two : off + 1 + 1 = off + 2 := BitVec.add_assoc off 1 1
  exact ⟨by rw [read_word, high, low, wordOfBytes_high_low], two ▸ htail⟩

theorem codeAt_of_codeLocation {s : State} {bs : List Byte} {n : Nat}
    (h : ∀ k (hk : k < bs.length), codeLocation s (n + k) ∉ s.mem.windows ∧ s.mem.byteAt (codeLocation s (n + k)) = bs[k]) :
    CodeAt s.mem s.cs (s.ip + BitVec.ofNat 16 n) bs := by
  induction bs generalizing n with
  | nil => trivial
  | cons b bs ih =>
    obtain ⟨hram, hbyte⟩ := h 0 (by simp)
    refine ⟨(readByte_ram hram).trans (congrArg (·, s.mem) hbyte), ?_⟩
    have next : s.ip + BitVec.ofNat 16 n + 1 = s.ip + BitVec.ofNat 16 (n + 1) := by
      rw [BitVec.ofNat_add, BitVec.add_assoc]
      rfl
    rw [next]
    refine ih fun k hk => ?_
    rw [Nat.add_assoc, Nat.add_comm 1 k]
    exact h (k + 1) (by simpa using hk)

/-! ### The words of a block (R76, R150) -/

/-- The control store holds these words in a block, from a step on. -/
def BlockHolds (s : State) (block : Word) : Nibble → List ControlBits → Prop
  | _, [] => True
  | k, w :: ws => s.romRead (block ||| k.setWidth 16) = w ∧ BlockHolds s block (k + 1) ws

theorem nibble_setWidth {n : Nat} (h : n < 16) : (BitVec.ofNat 4 n).setWidth 16 = BitVec.ofNat 16 n := by
  apply BitVec.eq_of_toNat_eq
  simp only [BitVec.toNat_setWidth, BitVec.toNat_ofNat]
  omega

theorem blockHolds_of_romRead {s : State} {block : Word} {ws : List ControlBits} {n : Nat} (hlen : n + ws.length ≤ 16)
    (h : ∀ k (hk : k < ws.length), s.romRead (block ||| BitVec.ofNat 16 (n + k)) = ws[k]) :
    BlockHolds s block (BitVec.ofNat 4 n) ws := by
  induction ws generalizing n with
  | nil => trivial
  | cons w ws ih =>
    rw [List.length_cons] at hlen
    refine ⟨nibble_setWidth (n := n) (by omega) ▸ h 0 (by simp), ?_⟩
    have next : BitVec.ofNat 4 n + 1 = BitVec.ofNat 4 (n + 1) := (BitVec.ofNat_add n 1).symm
    rw [next]
    refine ih (by omega) fun k hk => ?_
    rw [Nat.add_assoc, Nat.add_comm 1 k]
    exact h (k + 1) (by simpa using hk)

/-- The word leaves the block's address alone and does not return: the next step of the block follows it. -/
def fallsThrough (w : ControlBits) : Bool :=
  let cw := decodeControl w
  cw.lat != .ii && cw.cjc == .none && cw.ipc != .rtn

/-- A procedure of the example ROM is FETCH and at most four words that fall through to its last. -/
theorem exampleProcedure_shape {p : List ControlBits} (h : p ∈ exampleProcedures) :
    p = cwFetch :: p.tail ∧ p.tail.dropLast.all fallsThrough = true ∧ p.length ≤ 5 := by
  have shapes : (exampleProcedures.all fun p =>
      decide (p = cwFetch :: p.tail ∧ p.tail.dropLast.all fallsThrough = true ∧ p.length ≤ 5)) = true := by decide
  exact of_decide_eq_true (List.all_eq_true.mp shapes p h)

theorem exampleBlock_length_le (b : Word) : (exampleBlock b).length ≤ 5 := by
  obtain ⟨-, -, hlen⟩ := exampleProcedure_shape (exampleBlock_mem b)
  exact hlen

theorem blockAddress_block (x : Word) (k : Nibble) : (x &&& 0xFFF0 ||| k.setWidth 16) &&& 0xFFF0 = x &&& 0xFFF0 := by
  ext i hi
  interval_cases i <;> simp

theorem blockAddress_step (x : Word) (k : Nibble) : (x &&& 0xFFF0 ||| k.setWidth 16) &&& 0xF = k.setWidth 16 := by
  ext i hi
  interval_cases i <;> simp

/-- The word of the example ROM at a step of a block's procedure. -/
theorem exampleRom_block (x : Word) {k : Nat} (hk : k < (exampleBlock (x &&& 0xFFF0)).length) :
    exampleRom (x &&& 0xFFF0 ||| BitVec.ofNat 16 k) = (exampleBlock (x &&& 0xFFF0))[k] := by
  have hlen := exampleBlock_length_le (x &&& 0xFFF0)
  have hk16 : (BitVec.ofNat 16 k).toNat = k := Nat.mod_eq_of_lt (by omega)
  rw [← nibble_setWidth (by omega), exampleRom, blockAddress_block, blockAddress_step, nibble_setWidth (by omega), hk16,
    List.getElem?_eq_getElem hk, Option.getD_some]

theorem blockHolds_of_blockIsExample {s : State} {w : Word} (h : blockIsExample s w = true) :
    BlockHolds s (latchedBlock s w) 0 (exampleBlock (latchedBlock s w)) := by
  have holds : ∀ k < (exampleBlock (latchedBlock s w)).length, s.romRead (latchedBlock s w ||| BitVec.ofNat 16 k) =
      exampleRom (latchedBlock s w ||| BitVec.ofNat 16 k) := by
    simpa [blockIsExample, latchedBlock] using h
  have hlen := exampleBlock_length_le (latchedBlock s w)
  refine blockHolds_of_romRead (n := 0) (by omega) fun k hk => ?_
  rw [Nat.zero_add, holds k hk]
  exact exampleRom_block _ hk

/-! ### A run through a block (R76, R77) -/

/-- The ticks of a list of control words, one after the other. -/
def tickWords : List ControlBits → State → State
  | [], u => u
  | w :: ws, u => tickWords ws (tickWord (decodeControl w) u)

theorem tickWords_stopped {u : State} (h : u.run ≠ .fetching) (ws : List ControlBits) : tickWords ws u = u := by
  induction ws with
  | nil => rfl
  | cons w ws ih => rw [tickWords, tickWord_stopped _ h, ih]

theorem tickWords_cons_fault {w : ControlBits} {u : State} {f : FaultReason} (h : tickWord (decodeControl w) u = raise f u)
    (ws : List ControlBits) : tickWords (w :: ws) u = raise f u := by
  rw [tickWords, h, tickWords_stopped (by simp)]

/-- After a word that falls through, an engine that is still Fetching is at the next step of the same block. -/
theorem tickWord_fallsThrough {w : ControlBits} {u : State} (hw : fallsThrough w = true)
    (hrun : (tickWord (decodeControl w) u).run = .fetching) :
    (tickWord (decodeControl w) u).iw = u.iw ∧ (tickWord (decodeControl w) u).stepCtr = u.stepCtr + 1 := by
  simp only [fallsThrough, Bool.and_eq_true, bne_iff_ne, beq_iff_eq] at hw
  obtain ⟨⟨hlat, hcjc⟩, hrtn⟩ := hw
  obtain ⟨hs, h⟩ | ⟨-, hr, -⟩ | ⟨-, -, f, -, h⟩ | ⟨-, -, -, h⟩ := tickWord_cases (decodeControl w) u
  · exact absurd (h ▸ hrun) hs
  · exact absurd hr hrtn
  · rw [h] at hrun
    cases hrun
  · rw [h, performWord_iw, if_neg hlat, performWord_stepCtr, nextStep, hcjc]
    exact ⟨rfl, rfl⟩

theorem romRead_congr {s t : State} (h : t.rom = s.rom) (a : Word) : t.romRead a = s.romRead a := by
  rw [State.romRead, h, State.romRead]

theorem ticks_eq_tickWords {s u : State} {block : Word} {ws : List ControlBits} (hrom : u.rom = s.rom)
    (hiw : u.iw &&& 0xFFF0 = block) (hold : BlockHolds s block u.stepCtr ws)
    (hws : (ws.dropLast.all fallsThrough) = true) : ticks ws.length u = .next (tickWords ws u) := by
  induction ws generalizing u with
  | nil => rfl
  | cons w ws ih =>
    obtain ⟨hw, htail⟩ := hold
    have hcur : currentWord u = w := by rw [currentWord, romRead_congr hrom, dispatchAddress, hiw, hw]
    rw [List.length_cons, ticks_succ, hcur, tickWords]
    cases ws with
    | nil => rfl
    | cons w' ws =>
      rw [List.dropLast_cons_cons, List.all_cons, Bool.and_eq_true] at hws
      obtain ⟨hfall, hrest⟩ := hws
      by_cases hrun : (tickWord (decodeControl w) u).run = .fetching
      · obtain ⟨hiw', hstep⟩ := tickWord_fallsThrough hfall hrun
        exact ih ((tickWord_frame _ u).rom.trans hrom) (hiw'.symm ▸ hiw) (hstep.symm ▸ htail) hrest
      · rw [ticks_stopped hrun, tickWords_stopped hrun]

/-! ### The checks of a word (R174) -/

/-- The checks of a word without a reserved code or an illegal target, in their order. -/
theorem validate_eq_or {cw : ControlWord} (hc : reservedCode cw = false) (ht : cw.targetOutOfRange = false) (u : State) :
    validate cw u = ((if usesR1 cw then indexFault u.index1 cw.wid else none).or
      (if usesR2 cw then indexFault u.index2 cw.wid else none)).or (segmentFault cw u) := by
  simp only [validate, hc, ht]
  cases usesR1 cw <;> cases usesR2 cw <;> cases indexFault u.index1 cw.wid <;> cases indexFault u.index2 cw.wid <;> rfl

theorem indexFault_word_of_some {i : Nibble} {r : Reg} (h : Reg.ofIndex i = some r) : indexFault i .word = none := by
  have := ofIndex_some h
  obtain ⟨h8, -⟩ | ⟨-, -, hw, -⟩ | ⟨-, h⟩ := indexFault_cases i .word
  · omega
  · exact absurd rfl hw
  · exact h

theorem indexFault_word_of_none {i : Nibble} (h : Reg.ofIndex i = none) : indexFault i .word = some .badRegIndex := by
  have hi := ofIndex_isSome i
  rw [h, Option.isSome_none, eq_comm, decide_eq_false_iff_not, not_lt] at hi
  exact if_pos hi

/-! ### The forms of the example ROM's control words (R152) -/

/-- A read of the bytes at CS:IP. -/
def codeRead (ipc : IpcCode) (lat : LatCode) (dst : DstCode) (wid : WidCode) : ControlWord :=
  { ipc, lat, dst, wid, seg := .cs, mem := .rdip }

/-- An ALU operation on the register of operand 1. -/
def aluOnOperand1 (op : AluCode) (bb : BbCode) : ControlWord := { ba := .r1, bb, alu := op, dst := .r1 }

/-- The register of operand 2 to a destination. -/
def moveOperand2 (dst : DstCode) : ControlWord := { bb := .r2, dst }

/-- A load of the register of operand 1 through the segment of operand 2. -/
def loadOperand1 (wid : WidCode) : ControlWord := { wid, seg := .sego, mem := .rdt, dst := .r1 }

/-- A store of T1 through the segment of operand 1. -/
def storeT1 : ControlWord := { ba := .t1, seg := .segi, mem := .wrt }

/-- The end of a tick of a valid word, from what its memory phase gives. -/
theorem tickWord_of_memoryPhase {cw : ControlWord} {u : State} {d : Word} {m : Memory} (hrun : u.run = .fetching)
    (hrtn : cw.ipc ≠ .rtn) (hv : validate cw u = none) (hbus : memoryPhase cw u (aluPhase cw u).d = (d, m)) :
    tickWord cw u =
      { flagPhase cw.alu (aluPhase cw u) (destPhase cw.dst cw.wid u d (latchPhase cw.lat u d { u with mem := m })) with
        ip := ipControl cw.ipc d u.ip
        stepCtr := nextStep cw u
        run := haltControl cw.ipc u.run } := by
  rw [tickWord_valid hrun hrtn hv, performWord, hbus]

theorem with_run_self {u : State} {run : RunState} (h : u.run = run) : { u with run := run } = u := by
  subst h; rfl

theorem with_ip_self {u : State} {ip : Word} (h : u.ip = ip) : { u with ip := ip } = u := by
  subst h; rfl

/-- A word without an action of IPC leaves IP and the run state as they are. -/
theorem tickWord_of_ipcNone {cw : ControlWord} {u : State} {d : Word} {m : Memory} (hrun : u.run = .fetching)
    (hipc : cw.ipc = .none) (hv : validate cw u = none) (hbus : memoryPhase cw u (aluPhase cw u).d = (d, m)) :
    tickWord cw u =
      { flagPhase cw.alu (aluPhase cw u) (destPhase cw.dst cw.wid u d (latchPhase cw.lat u d { u with mem := m })) with
        stepCtr := nextStep cw u } := by
  rw [tickWord_of_memoryPhase hrun (by simp [hipc]) hv hbus, hipc,
    ← with_ip_self (u := flagPhase ..) (ip := u.ip) (by simp),
    ← with_run_self (u := flagPhase ..) (run := u.run) (by simp)]
  rfl

/-- A read of the bytes at CS:IP changes what LAT, DST and IPC say, and the step. -/
theorem tickWord_codeRead {ipc : IpcCode} {lat : LatCode} {dst : DstCode} {wid : WidCode} {u : State} {v : Word}
    (hrun : u.run = .fetching) (hipc : ipc ∉ [.rtn, .hlt]) (hv : validate (codeRead ipc lat dst wid) u = none)
    (hread : u.mem.read wid u.cs u.ip = (v, u.mem)) :
    tickWord (codeRead ipc lat dst wid) u =
      { destPhase dst wid u v (latchPhase lat u v u) with ip := ipControl ipc v u.ip, stepCtr := u.stepCtr + 1 } := by
  simp only [List.mem_cons, List.not_mem_nil, or_false, not_or] at hipc
  obtain ⟨hrtn, hhlt⟩ := hipc
  have run : (destPhase dst wid u v (latchPhase lat u v u)).run = haltControl ipc u.run := by
    rw [haltControl_eq_ite, if_neg hhlt, destPhase_run, latchPhase_run]
  rw [tickWord_of_memoryPhase hrun hrtn hv hread, ← with_run_self run]
  rfl

theorem alu_none_zero_left (B : Word) : (alu .none 0 B 16).d = B := by
  apply BitVec.eq_of_toNat_eq
  simpa [alu, aluOr, aluOut] using B.isLt

theorem alu_none_zero_right (A : Word) : (alu .none A 0 16).d = A := by
  apply BitVec.eq_of_toNat_eq
  simpa [alu, aluOr, aluOut] using A.isLt

/-- An ALU operation on a register writes it and the flags. -/
theorem tickWord_aluOnOperand1 {op : AluCode} {bb : BbCode} {u : State} {d : Reg} (hrun : u.run = .fetching)
    (hd : Reg.ofIndex u.index1 = some d) (hop : op ≠ .none) (hv : validate (aluOnOperand1 op bb) u = none) :
    tickWord (aluOnOperand1 op bb) u =
      { withFlags (alu op (u.getReg d) (busB bb .word u) 16)
          (u.setReg d (alu op (u.getReg d) (busB bb .word u) 16).d) with stepCtr := u.stepCtr + 1 } := by
  have out : aluPhase (aluOnOperand1 op bb) u = alu op (u.getReg d) (busB bb .word u) 16 :=
    congrArg (alu op · _ 16) (regRead_eq hd .word)
  have flags (o : AluOut) (v : State) : flagPhase op o v = withFlags o v := by
    cases op
    case none => exact absurd rfl hop
    all_goals rfl
  rw [tickWord_of_ipcNone hrun rfl hv rfl, out]
  simp only [aluOnOperand1, destPhase, latchPhase, regWrite_eq hd, flags]
  cases d <;> rfl

theorem validate_moveOperand2_t0 (u : State) : validate (moveOperand2 .t0) u = indexFault u.index2 .word := by
  rw [validate_eq_or rfl rfl]
  simp [moveOperand2, usesR1, usesR2, segmentFault]

/-- A move of the register of operand 2 writes the destination alone. -/
theorem tickWord_moveOperand2 {dst : DstCode} {u : State} {src : Reg} (hrun : u.run = .fetching)
    (hsrc : Reg.ofIndex u.index2 = some src) (hv : validate (moveOperand2 dst) u = none) :
    tickWord (moveOperand2 dst) u = { destPhase dst .word u (u.getReg src) u with stepCtr := u.stepCtr + 1 } := by
  have data : (aluPhase (moveOperand2 dst) u).d = u.getReg src :=
    (congrArg (fun B => (alu .none 0 B 16).d) (regRead_eq hsrc .word)).trans (alu_none_zero_left _)
  rw [tickWord_of_ipcNone hrun rfl hv rfl, data]
  rfl

/-! ### The ticks of the example ROM's words -/

/-- FETCH at step 0 (R151). -/
theorem tickWord_fetch {s : State} {w : Word} (hrun : s.run = .fetching) (hstep : s.stepCtr = 0)
    (hread : s.mem.read .word s.cs s.ip = (w, s.mem)) : tickWord (decodeControl cwFetch) s = afterFetch w s := by
  have form : decodeControl cwFetch = codeRead .ipc2 .ii .none .word := by decide
  rw [form, tickWord_codeRead hrun (by decide) rfl hread, hstep]
  rfl

section
variable {u : State} (hrun : u.run = .fetching)
include hrun

theorem tickWords_fault {w : ControlBits} {cw : ControlWord} {f : FaultReason} (form : decodeControl w = cw)
    (hrtn : cw.ipc ≠ .rtn) (hv : validate cw u = some f) (ws : List ControlBits) : tickWords (w :: ws) u = raise f u :=
  tickWords_cons_fault (form ▸ tickWord_fault hrun hrtn hv) ws

theorem tickWords_rtn : tickWords [cwRtn] u = returned u := tickWord_rtn hrun (by decide)

theorem tickWords_hlt : tickWords [cwHlt] u = { u with stepCtr := u.stepCtr + 1, run := .halted } := by
  have form : decodeControl cwHlt = { ipc := .hlt } := by decide
  rw [tickWords, form, tickWord_of_memoryPhase hrun (by decide) rfl rfl]
  rfl

theorem tickWords_skip2 : tickWords [cwSkip2, cwRtn] u = returned { u with ip := u.ip + 2 } := by
  have form : decodeControl cwSkip2 = { ipc := .ipc2 } := by decide
  rw [tickWords, form, tickWord_of_memoryPhase hrun (by decide) rfl rfl, tickWords_rtn (by exact hrun)]
  rfl

theorem tickWords_jmpImm {v : Word} (hread : u.mem.read .word u.cs u.ip = (v, u.mem)) :
    tickWords [cwJmpImm, cwRtn] u = returned { u with ip := v } := by
  have form : decodeControl cwJmpImm = codeRead .jmp .none .none .word := by decide
  rw [tickWords, form, tickWord_codeRead hrun (by decide) rfl hread, tickWords_rtn (by exact hrun)]
  rfl

/-- The operand byte in OW (R157, R159 to R161, R163). -/
theorem tickWords_rdbOi {b : Byte} (hstep : u.stepCtr = 1) (hread : u.mem.read .byte u.cs u.ip = (b.setWidth 16, u.mem))
    (ws : List ControlBits) : tickWords (cwRdbOi :: ws) u = tickWords ws (afterOperandByte b u) := by
  have form : decodeControl cwRdbOi = codeRead .ipc1 .oi .none .byte := by decide
  rw [tickWords, form, tickWord_codeRead hrun (by decide) rfl hread, hstep]
  rfl

/-- A word operand in T0 (R158). -/
theorem tickWords_rdwT0 {v : Word} (hread : u.mem.read .word u.cs u.ip = (v, u.mem)) (ws : List ControlBits) :
    tickWords (cwRdwT0 :: ws) u = tickWords ws { u with t0 := v, ip := u.ip + 2, stepCtr := u.stepCtr + 1 } := by
  have form : decodeControl cwRdwT0 = codeRead .ipc2 .none .t0 .word := by decide
  rw [tickWords, form, tickWord_codeRead hrun (by decide) rfl hread]
  rfl

/-- A word operand in T1 (R158, R162, R164). -/
theorem tickWords_rdwT1 {v : Word} (hread : u.mem.read .word u.cs u.ip = (v, u.mem)) (ws : List ControlBits) :
    tickWords (cwRdwT1 :: ws) u = tickWords ws { u with t1 := v, ip := u.ip + 2, stepCtr := u.stepCtr + 1 } := by
  have form : decodeControl cwRdwT1 = codeRead .ipc2 .none .t1 .word := by decide
  rw [tickWords, form, tickWord_codeRead hrun (by decide) rfl hread]
  rfl

/-- A byte operand in T1 (R165). -/
theorem tickWords_rdbT1 {v : Word} (hread : u.mem.read .byte u.cs u.ip = (v, u.mem)) (ws : List ControlBits) :
    tickWords (cwRdbT1 :: ws) u = tickWords ws { u with t1 := v, ip := u.ip + 1, stepCtr := u.stepCtr + 1 } := by
  have form : decodeControl cwRdbT1 = codeRead .ipc1 .none .t1 .byte := by decide
  rw [tickWords, form, tickWord_codeRead hrun (by decide) rfl hread]
  rfl

/-- An immediate operand into the register of operand 1 (R155, R156). -/
theorem tickWords_codeRead_r1 {w : ControlBits} {ipc : IpcCode} {wid : WidCode} {v : Word}
    (form : decodeControl w = codeRead ipc .none .r1 wid) (hipc : ipc ∉ [.reserved7, .rtn, .hlt])
    (hread : u.mem.read wid u.cs u.ip = (v, u.mem)) :
    tickWords [w, cwRtn] u =
      match indexFault u.index1 wid with
      | some f => raise f u
      | none => returned { regWrite u u.index1 wid v with ip := ipControl ipc v u.ip } := by
  rw [List.mem_cons, not_or] at hipc
  obtain ⟨hres, hipc⟩ := hipc
  have hrtn : ipc ≠ .rtn := fun h => hipc (by simp [h])
  have hv : validate (codeRead ipc .none .r1 wid) u = indexFault u.index1 wid := by
    rw [validate_eq_or (by simpa [codeRead, reservedCode] using hres) rfl]
    simp [codeRead, usesR1, usesR2, segmentFault]
  cases hf : indexFault u.index1 wid with
  | some f => exact tickWords_fault hrun form hrtn (hv.trans hf) _
  | none =>
    rw [tickWords, form, tickWord_codeRead hrun hipc (hv.trans hf) hread, tickWords_rtn (by simpa using hrun)]
    rfl

/-- An ALU operation on the register of operand 1 (R161 to R165). -/
theorem tickWords_aluOnOperand1 {w : ControlBits} {op : AluCode} {bb : BbCode}
    (form : decodeControl w = aluOnOperand1 op bb) (hop : op ≠ .none)
    (hbb : bb = .r2 → indexFault u.index2 .word = none) :
    tickWords [w, cwRtn] u = aluOnReg op u.index1 (busB bb .word u) u := by
  have hrtn : (aluOnOperand1 op bb).ipc ≠ .rtn := IpcCode.noConfusion
  have hv : validate (aluOnOperand1 op bb) u = indexFault u.index1 .word := by
    rw [validate_eq_or rfl rfl]
    simp +contextual [aluOnOperand1, usesR1, usesR2, segmentFault, hbb]
  cases hr : Reg.ofIndex u.index1 with
  | none =>
    rw [tickWords_fault hrun form hrtn (hv.trans (indexFault_word_of_none hr)), aluOnReg, hr]
  | some d =>
    have hvalid := hv.trans (indexFault_word_of_some hr)
    rw [tickWords, form, tickWord_aluOnOperand1 hrun hr hop hvalid, tickWords_rtn (by simpa using hrun), aluOnReg, hr]
    rfl

/-- An illegal index of operand 2 faults, whatever that of operand 1 (R161, R163). -/
theorem tickWords_aluOnOperand1_fault {w : ControlBits} {op : AluCode} (form : decodeControl w = aluOnOperand1 op .r2)
    (hsrc : Reg.ofIndex u.index2 = none) (ws : List ControlBits) : tickWords (w :: ws) u = raise .badRegIndex u := by
  have hv : validate (aluOnOperand1 op .r2) u = (indexFault u.index1 .word).or (some .badRegIndex) := by
    rw [validate_eq_or rfl rfl, ← indexFault_word_of_none hsrc]
    simp [aluOnOperand1, usesR1, usesR2, segmentFault]
  refine tickWords_fault hrun form IpcCode.noConfusion (hv.trans ?_) ws
  cases hd : Reg.ofIndex u.index1 with
  | none => rw [indexFault_word_of_none hd, Option.some_or]
  | some d => rw [indexFault_word_of_some hd, Option.none_or]

theorem tickWords_r2ToT0_fault (hbase : Reg.ofIndex u.index2 = none) (ws : List ControlBits) :
    tickWords (cwR2ToT0 :: ws) u = raise .badRegIndex u := by
  have form : decodeControl cwR2ToT0 = moveOperand2 .t0 := by decide
  exact tickWords_fault hrun form (by decide) ((validate_moveOperand2_t0 u).trans (indexFault_word_of_none hbase)) ws

/-- The register of operand 2 to T0 (R159, R160). -/
theorem tickWords_r2ToT0 {base : Reg} (hbase : Reg.ofIndex u.index2 = some base) (ws : List ControlBits) :
    tickWords (cwR2ToT0 :: ws) u = tickWords ws { u with t0 := u.getReg base, stepCtr := u.stepCtr + 1 } := by
  have form : decodeControl cwR2ToT0 = moveOperand2 .t0 := by decide
  have hv := (validate_moveOperand2_t0 u).trans (indexFault_word_of_some hbase)
  rw [tickWords, form, tickWord_moveOperand2 hrun hbase hv]
  rfl

/-- The register of operand 2 to the register of operand 1 (R157). -/
theorem tickWords_movR2R1 :
    tickWords [cwMovR2R1, cwRtn] u =
      match Reg.ofIndex u.index1, Reg.ofIndex u.index2 with
      | some d, some src => returned (u.setReg d (u.getReg src))
      | _, _ => raise .badRegIndex u := by
  have form : decodeControl cwMovR2R1 = moveOperand2 .r1 := by decide
  have hrtn : (moveOperand2 .r1).ipc ≠ .rtn := by decide
  have hv : validate (moveOperand2 .r1) u = (indexFault u.index1 .word).or (indexFault u.index2 .word) := by
    rw [validate_eq_or rfl rfl]
    simp [moveOperand2, usesR1, usesR2, segmentFault]
  cases hd : Reg.ofIndex u.index1 with
  | none =>
    rw [indexFault_word_of_none hd] at hv
    exact tickWords_fault hrun form hrtn hv _
  | some d =>
    rw [indexFault_word_of_some hd] at hv
    cases hsrc : Reg.ofIndex u.index2 with
    | none =>
      rw [indexFault_word_of_none hsrc] at hv
      exact tickWords_fault hrun form hrtn hv _
    | some src =>
      rw [indexFault_word_of_some hsrc] at hv
      rw [tickWords, form, tickWord_moveOperand2 hrun hsrc hv, destPhase, regWrite_eq hd, tickWords_rtn (by simpa using hrun)]
      rfl

/-- A load through the segment of operand 2 (R159, R160): the destination's index is checked before the segment's. -/
theorem tickWords_loadOperand1 {w : ControlBits} {wid : WidCode} (form : decodeControl w = loadOperand1 wid) :
    tickWords [w, cwRtn] u =
      match indexFault u.index1 wid with
      | some f => raise f u
      | none =>
        if isSegmentIndex u.segIndex2 then
          let got := u.mem.read wid (regRead u u.segIndex2 .word) u.t0
          returned (regWrite { u with mem := got.2 } u.index1 wid got.1)
        else raise .badSegmentIndex u := by
  have hrtn : (loadOperand1 wid).ipc ≠ .rtn := IpcCode.noConfusion
  have hv : validate (loadOperand1 wid) u =
      (indexFault u.index1 wid).or (if isSegmentIndex u.segIndex2 then none else some .badSegmentIndex) := by
    rw [validate_eq_or rfl rfl]
    simp [loadOperand1, usesR1, usesR2, segmentFault]
  cases hf : indexFault u.index1 wid with
  | some f =>
    rw [hf] at hv
    exact tickWords_fault hrun form hrtn hv _
  | none =>
    rw [hf, Option.none_or] at hv
    by_cases hseg : isSegmentIndex u.segIndex2 = true
    · rw [if_pos hseg] at hv
      simp only [hseg, if_true]
      rw [tickWords, form, tickWord_of_ipcNone hrun rfl hv rfl, tickWords_rtn (by simpa [loadOperand1] using hrun)]
      rfl
    · rw [if_neg hseg] at hv
      simp only [hseg]
      exact tickWords_fault hrun form hrtn hv _

/-- A store of T1 through the segment of operand 1 (R158). -/
theorem tickWords_wrT1AtT0Segi :
    tickWords [cwWrT1AtT0Segi, cwRtn] u =
      if isSegmentIndex u.index1 then
        returned { u with mem := u.mem.write .word (regRead u u.index1 .word) u.t0 u.t1 }
      else raise .badSegmentIndex u := by
  have form : decodeControl cwWrT1AtT0Segi = storeT1 := by decide
  have hrtn : storeT1.ipc ≠ .rtn := by decide
  have hv : validate storeT1 u = if isSegmentIndex u.index1 then none else some .badSegmentIndex := by
    rw [validate_eq_or rfl rfl]
    simp [storeT1, usesR1, usesR2, segmentFault]
  split
  · next hseg =>
    rw [if_pos hseg] at hv
    have hbus : memoryPhase storeT1 u (aluPhase storeT1 u).d =
        (u.t1, u.mem.write .word (regRead u u.index1 .word) u.t0 u.t1) := by
      have hd : (aluPhase storeT1 u).d = u.t1 := alu_none_zero_right u.t1
      rw [hd]
      rfl
    rw [tickWords, form, tickWord_of_memoryPhase hrun hrtn hv hbus, tickWords_rtn (by exact hrun)]
    rfl
  · next hseg =>
    rw [if_neg hseg] at hv
    exact tickWords_fault hrun form hrtn hv _

end

/-! ### The instructions of the example ROM (R153 to R169) -/

theorem index1_afterFetch (s : State) {block : Word} (h : block &&& 0x7FF0 = block) (r : Nibble) :
    (afterFetch (withIndex block r) s).index1 = r :=
  (mergeFlags_index s _).trans (withIndex_index h r)

theorem index2_afterOperandByte (b : Byte) (u : State) : (afterOperandByte b u).index2 = lowNibble b := by
  rw [State.index2, afterOperandByte_ow, lowNibble]
  ext i hi
  interval_cases i <;> simp

theorem index1_afterOperandByte (b : Byte) (u : State) : (afterOperandByte b u).index1 = u.index1 := rfl

theorem segIndex2_afterOperandByte (b : Byte) (u : State) : (afterOperandByte b u).segIndex2 = highNibble b := by
  rw [State.segIndex2, afterOperandByte_ow, highNibble]
  ext i hi
  interval_cases i <;> simp

/-- The engine has latched an instruction word, and its operand bytes follow (R151). -/
structure AtOperands (u : State) (operands : List Byte) : Prop where
  run : u.run = .fetching
  step : u.stepCtr = 1
  code : CodeAt u.mem u.cs u.ip operands

theorem AtOperands.readByte {u : State} {b : Byte} {bs : List Byte} (h : AtOperands u (b :: bs)) :
    u.mem.read .byte u.cs u.ip = (b.setWidth 16, u.mem) :=
  (h.code.byte (by decide)).1

theorem AtOperands.readWord {u : State} {v : Word} {bs : List Byte} (h : AtOperands u (highByte v :: lowByte v :: bs)) :
    u.mem.read .word u.cs u.ip = (v, u.mem) :=
  h.code.word.1

theorem exec_of_whenFetching {s t t' : State} {w : Word} {bs : List Byte} (h : AtOperands (afterFetch w s) bs)
    (ht : t' = t) : whenFetching s t = .next t' := by
  rw [whenFetching_run (by exact h.run), ht]

theorem execNop_eq_ticks {s : State} {low : Nibble} (h : AtOperands (afterFetch (Instr.nop low).instrWord s) []) :
    execNop low s = .next (tickWords [cwRtn] (afterFetch (Instr.nop low).instrWord s)) :=
  exec_of_whenFetching h (tickWords_rtn h.run)

theorem execHlt_eq_ticks {s : State} {low : Nibble} (h : AtOperands (afterFetch (Instr.hlt low).instrWord s) []) :
    execHlt low s = .next (tickWords [cwHlt] (afterFetch (Instr.hlt low).instrWord s)) :=
  exec_of_whenFetching h (tickWords_hlt h.run)

theorem execIllegal_eq_ticks {s : State} {word : Word} (h : AtOperands (afterFetch word s) []) :
    execIllegal word s = .next (tickWords [cwHlt] (afterFetch word s)) :=
  exec_of_whenFetching h (tickWords_hlt h.run)

theorem execMovRegImm16_eq_ticks {s : State} {r : Nibble} {imm : Word}
    (h : AtOperands (afterFetch (Instr.movRegImm16 r imm).instrWord s) [highByte imm, lowByte imm]) :
    execMovRegImm16 r imm s =
      .next (tickWords [cwRdwR1, cwRtn] (afterFetch (Instr.movRegImm16 r imm).instrWord s)) := by
  refine exec_of_whenFetching h ?_
  rw [tickWords_codeRead_r1 h.run (ipc := .ipc2) (wid := .word) (by decide) (by decide) h.readWord,
    Instr.instrWord, index1_afterFetch s (by decide)]
  cases hr : Reg.ofIndex r with
  | none => rw [indexFault_word_of_none hr]
  | some d => rw [indexFault_word_of_some hr, regWrite_eq hr]; rfl

theorem execMovRegImm8_eq_ticks {s : State} {r : Nibble} {imm : Byte}
    (h : AtOperands (afterFetch (Instr.movRegImm8 r imm).instrWord s) [imm]) :
    execMovRegImm8 r imm s =
      .next (tickWords [cwRdbR1, cwRtn] (afterFetch (Instr.movRegImm8 r imm).instrWord s)) := by
  refine exec_of_whenFetching h ?_
  rw [tickWords_codeRead_r1 h.run (ipc := .ipc1) (wid := .byte) (by decide) (by decide) h.readByte,
    Instr.instrWord, index1_afterFetch s (by decide)]
  rfl

theorem execMovRegReg_eq_ticks {s : State} {r : Nibble} {operand : Byte}
    (h : AtOperands (afterFetch (Instr.movRegReg r operand).instrWord s) [operand]) :
    execMovRegReg r operand s =
      .next (tickWords [cwRdbOi, cwMovR2R1, cwRtn] (afterFetch (Instr.movRegReg r operand).instrWord s)) := by
  refine exec_of_whenFetching h ?_
  have move := tickWords_movR2R1 (u := afterOperandByte operand (afterFetch (withIndex 0x0890 r) s)) h.run
  rw [index2_afterOperandByte, index1_afterOperandByte, index1_afterFetch s (by decide)] at move
  exact (tickWords_rdbOi h.run h.step h.readByte _).trans move

/-- The ticks of a store of an immediate word from the operands on (R158). -/
theorem storeImmediate_ticks {u : State} {addr value : Word}
    (h : AtOperands u [highByte addr, lowByte addr, highByte value, lowByte value]) :
    tickWords [cwRdwT0, cwRdwT1, cwWrT1AtT0Segi, cwRtn] u =
      let s3 := { u with t0 := addr, t1 := value, ip := u.ip + 4, stepCtr := 3 }
      if isSegmentIndex u.index1 then
        returned { s3 with mem := s3.mem.write .word (regRead s3 u.index1 .word) addr value }
      else raise .badSegmentIndex s3 := by
  obtain ⟨hrun, hstep, hcode⟩ := h
  obtain ⟨hread, hcode⟩ := hcode.word
  obtain ⟨hread', -⟩ := hcode.word
  have hip : u.ip + 2 + 2 = u.ip + 4 := BitVec.add_assoc u.ip 2 2
  rw [tickWords_rdwT0 hrun hread, tickWords_rdwT1 (by exact hrun) (by exact hread'),
    tickWords_wrT1AtT0Segi (by exact hrun), hip, hstep]
  rfl

theorem execMovMemImm_eq_ticks {s : State} {seg : Nibble} {addr value : Word}
    (h : AtOperands (afterFetch (Instr.movMemImm seg addr value).instrWord s)
      [highByte addr, lowByte addr, highByte value, lowByte value]) :
    execMovMemImm seg addr value s =
      .next (tickWords [cwRdwT0, cwRdwT1, cwWrT1AtT0Segi, cwRtn]
        (afterFetch (Instr.movMemImm seg addr value).instrWord s)) := by
  refine exec_of_whenFetching h ?_
  rw [storeImmediate_ticks h, Instr.instrWord, index1_afterFetch s (by decide)]

/-- The ticks of a load from the operand byte on (R159, R160). -/
theorem loadThroughSegment_eq_ticks {w : ControlBits} {wid : WidCode} (form : decodeControl w = loadOperand1 wid)
    {u : State} {operand : Byte} (h : AtOperands u [operand]) :
    tickWords [cwRdbOi, cwR2ToT0, w, cwRtn] u = loadThroughSegment wid u.index1 operand (afterOperandByte operand u) := by
  have hrun : (afterOperandByte operand u).run = .fetching := h.run
  rw [tickWords_rdbOi h.run h.step h.readByte, loadThroughSegment, ← index2_afterOperandByte operand u]
  cases hbase : Reg.ofIndex (afterOperandByte operand u).index2 with
  | none => exact tickWords_r2ToT0_fault hrun hbase _
  | some base =>
    rw [tickWords_r2ToT0 hrun hbase, ← segIndex2_afterOperandByte operand u]
    exact tickWords_loadOperand1
      (u := { afterOperandByte operand u with t0 := (afterOperandByte operand u).getReg base, stepCtr := 3 }) hrun form

theorem execMovRegMemw_eq_ticks {s : State} {r : Nibble} {operand : Byte}
    (h : AtOperands (afterFetch (Instr.movRegMemw r operand).instrWord s) [operand]) :
    execMovRegMemw r operand s =
      .next (tickWords [cwRdbOi, cwR2ToT0, cwRdAtT0SegoR1, cwRtn]
        (afterFetch (Instr.movRegMemw r operand).instrWord s)) := by
  refine exec_of_whenFetching h ?_
  rw [loadThroughSegment_eq_ticks (wid := .word) (by decide) h, Instr.instrWord, index1_afterFetch s (by decide)]

theorem execMovRegMemb_eq_ticks {s : State} {r : Nibble} {operand : Byte}
    (h : AtOperands (afterFetch (Instr.movRegMemb r operand).instrWord s) [operand]) :
    execMovRegMemb r operand s =
      .next (tickWords [cwRdbOi, cwR2ToT0, cwRdbzAtT0SegoR1, cwRtn]
        (afterFetch (Instr.movRegMemb r operand).instrWord s)) := by
  refine exec_of_whenFetching h ?_
  rw [loadThroughSegment_eq_ticks (wid := .bytez) (by decide) h, Instr.instrWord, index1_afterFetch s (by decide)]

/-- The ticks of an operation on two registers from the operand byte on (R161, R163). -/
theorem aluOnRegs_eq_ticks {w : ControlBits} {op : AluCode} (form : decodeControl w = aluOnOperand1 op .r2)
    (hop : op ≠ .none) {u : State} {operand : Byte} (h : AtOperands u [operand]) :
    tickWords [cwRdbOi, w, cwRtn] u = aluOnRegs op u.index1 operand (afterOperandByte operand u) := by
  have hrun : (afterOperandByte operand u).run = .fetching := h.run
  rw [tickWords_rdbOi h.run h.step h.readByte, aluOnRegs, ← index2_afterOperandByte operand u]
  cases hsrc : Reg.ofIndex (afterOperandByte operand u).index2 with
  | none => exact tickWords_aluOnOperand1_fault hrun form hsrc _
  | some src =>
    rw [tickWords_aluOnOperand1 hrun form hop fun _ => indexFault_word_of_some hsrc, busB, regRead_eq hsrc]
    rfl

/-- The ticks of an operation with an immediate word from the operand on (R162, R164). -/
theorem aluOnImmediate_ticks {w : ControlBits} {op : AluCode} (form : decodeControl w = aluOnOperand1 op .t1)
    (hop : op ≠ .none) {u : State} {imm : Word} (h : AtOperands u [highByte imm, lowByte imm]) :
    tickWords [cwRdwT1, w, cwRtn] u = aluOnReg op u.index1 imm (afterOperandWord imm u) := by
  rw [tickWords_rdwT1 h.run h.readWord, h.step, tickWords_aluOnOperand1 (by exact h.run) form hop nofun]
  rfl

/-- The ticks of a shift by an immediate count from the operand on (R165). -/
theorem shiftImmediate_ticks {u : State} {imm : Byte} (h : AtOperands u [imm]) :
    tickWords [cwRdbT1, cwShlR1T1, cwRtn] u =
      aluOnReg .shl u.index1 (imm.setWidth 16) { u with t1 := imm.setWidth 16, ip := u.ip + 1, stepCtr := 2 } := by
  rw [tickWords_rdbT1 h.run h.readByte, h.step,
    tickWords_aluOnOperand1 (op := .shl) (bb := .t1) (by exact h.run) (by decide) (by decide) nofun]
  rfl

theorem execAddRegReg_eq_ticks {s : State} {r : Nibble} {operand : Byte}
    (h : AtOperands (afterFetch (Instr.addRegReg r operand).instrWord s) [operand]) :
    execAddRegReg r operand s =
      .next (tickWords [cwRdbOi, cwAddR1R2, cwRtn] (afterFetch (Instr.addRegReg r operand).instrWord s)) := by
  refine exec_of_whenFetching h ?_
  rw [aluOnRegs_eq_ticks (op := .add) (by decide) (by decide) h, Instr.instrWord, index1_afterFetch s (by decide)]

theorem execSubRegReg_eq_ticks {s : State} {r : Nibble} {operand : Byte}
    (h : AtOperands (afterFetch (Instr.subRegReg r operand).instrWord s) [operand]) :
    execSubRegReg r operand s =
      .next (tickWords [cwRdbOi, cwSubR1R2, cwRtn] (afterFetch (Instr.subRegReg r operand).instrWord s)) := by
  refine exec_of_whenFetching h ?_
  rw [aluOnRegs_eq_ticks (op := .sub) (by decide) (by decide) h, Instr.instrWord, index1_afterFetch s (by decide)]

theorem execAddRegImm16_eq_ticks {s : State} {r : Nibble} {imm : Word}
    (h : AtOperands (afterFetch (Instr.addRegImm16 r imm).instrWord s) [highByte imm, lowByte imm]) :
    execAddRegImm16 r imm s =
      .next (tickWords [cwRdwT1, cwAddR1T1, cwRtn] (afterFetch (Instr.addRegImm16 r imm).instrWord s)) := by
  refine exec_of_whenFetching h ?_
  rw [aluOnImmediate_ticks (op := .add) (by decide) (by decide) h, Instr.instrWord, index1_afterFetch s (by decide)]

theorem execSubRegImm16_eq_ticks {s : State} {r : Nibble} {imm : Word}
    (h : AtOperands (afterFetch (Instr.subRegImm16 r imm).instrWord s) [highByte imm, lowByte imm]) :
    execSubRegImm16 r imm s =
      .next (tickWords [cwRdwT1, cwSubR1T1, cwRtn] (afterFetch (Instr.subRegImm16 r imm).instrWord s)) := by
  refine exec_of_whenFetching h ?_
  rw [aluOnImmediate_ticks (op := .sub) (by decide) (by decide) h, Instr.instrWord, index1_afterFetch s (by decide)]

theorem execShlRegImm8_eq_ticks {s : State} {r : Nibble} {imm : Byte}
    (h : AtOperands (afterFetch (Instr.shlRegImm8 r imm).instrWord s) [imm]) :
    execShlRegImm8 r imm s =
      .next (tickWords [cwRdbT1, cwShlR1T1, cwRtn] (afterFetch (Instr.shlRegImm8 r imm).instrWord s)) := by
  refine exec_of_whenFetching h ?_
  rw [shiftImmediate_ticks h, Instr.instrWord, index1_afterFetch s (by decide)]

theorem execJmp_eq_ticks {s : State} {slot : BitVec 3} {low : Nibble} {target : Word}
    (h : AtOperands (afterFetch (Instr.jmp slot low target).instrWord s) [highByte target, lowByte target]) :
    execJmp slot low target s =
      .next (tickWords [cwJmpImm, cwRtn] (afterFetch (Instr.jmp slot low target).instrWord s)) :=
  exec_of_whenFetching h (tickWords_jmpImm h.run h.readWord)

/-- The ticks of a conditional jump from the operand on (R167, R168). -/
theorem conditionalJump_ticks {u : State} {target : Word} (h : AtOperands u [highByte target, lowByte target]) (jump : Bool) :
    tickWords (if jump then [cwJmpImm, cwRtn] else [cwSkip2, cwRtn]) u =
      returned { u with ip := if jump then target else u.ip + 2 } := by
  cases jump
  · exact tickWords_skip2 h.run
  · exact tickWords_jmpImm h.run h.readWord

theorem execJz_eq_ticks {s : State} {slot : BitVec 3} {low : Nibble} {target : Word}
    (h : AtOperands (afterFetch (Instr.jz slot low target).instrWord s) [highByte target, lowByte target]) :
    execJz slot low target s =
      .next (tickWords (procedureOf s.zf (.jz slot low target)).tail
        (afterFetch (Instr.jz slot low target).instrWord s)) := by
  refine exec_of_whenFetching h ?_
  rw [procedureOf, apply_ite List.tail]
  exact conditionalJump_ticks h s.zf

theorem execJnz_eq_ticks {s : State} {slot : BitVec 3} {low : Nibble} {target : Word}
    (h : AtOperands (afterFetch (Instr.jnz slot low target).instrWord s) [highByte target, lowByte target]) :
    execJnz slot low target s =
      .next (tickWords (procedureOf s.zf (.jnz slot low target)).tail
        (afterFetch (Instr.jnz slot low target).instrWord s)) := by
  refine exec_of_whenFetching h ?_
  cases hz : s.zf
  · exact conditionalJump_ticks h true
  · exact conditionalJump_ticks h false

/-- An instruction of the example ROM is the ticks of its procedure's words after FETCH (R149, R150). -/
theorem exec_eq_tickWords {i : Instr} {s : State} (hc : i.controlWord? = none)
    (h : AtOperands (afterFetch i.instrWord s) i.operandBytes) :
    exec i s = .next (tickWords (procedureOf s.zf i).tail (afterFetch i.instrWord s)) := by
  cases i
  case nop => exact execNop_eq_ticks h
  case hlt => exact execHlt_eq_ticks h
  case movRegImm16 => exact execMovRegImm16_eq_ticks h
  case movRegImm8 => exact execMovRegImm8_eq_ticks h
  case movRegReg => exact execMovRegReg_eq_ticks h
  case movMemImm => exact execMovMemImm_eq_ticks h
  case movRegMemw => exact execMovRegMemw_eq_ticks h
  case movRegMemb => exact execMovRegMemb_eq_ticks h
  case addRegReg => exact execAddRegReg_eq_ticks h
  case addRegImm16 => exact execAddRegImm16_eq_ticks h
  case subRegReg => exact execSubRegReg_eq_ticks h
  case subRegImm16 => exact execSubRegImm16_eq_ticks h
  case shlRegImm8 => exact execShlRegImm8_eq_ticks h
  case jmp => exact execJmp_eq_ticks h
  case jz => exact execJz_eq_ticks h
  case jnz => exact execJnz_eq_ticks h
  case illegal => exact execIllegal_eq_ticks h
  all_goals cases hc

/-! ### A step at the instruction grain (R97) -/

/-- What holds where a step is a whole instruction (log entry 7). -/
structure MacroBegins (s : State) (i : Instr) : Prop where
  run : s.run = .fetching
  step : s.stepCtr = 0
  word : currentWord s = cwFetch
  wellFormed : i.WellFormed
  noControlWord : i.controlWord? = none
  code : CodeAt s.mem s.cs s.ip (highByte i.instrWord :: lowByte i.instrWord :: i.operandBytes)
  block : blockIsExample s i.instrWord = true

/-- The bytes that the decoder consumed stand at CS:IP. -/
theorem codeAt_of_readsAs {s : State} {i : Instr} {rest : List Byte} (h : ReadsAs (codeBytes s 6) i rest)
    (hram : ∀ k, k < 6 - rest.length → codeLocation s k ∉ s.mem.windows) :
    CodeAt s.mem s.cs s.ip (highByte i.instrWord :: lowByte i.instrWord :: i.operandBytes) := by
  have hbytes : (highByte i.instrWord :: lowByte i.instrWord :: i.operandBytes) ++ rest = codeBytes s 6 := h.bytes
  generalize highByte i.instrWord :: lowByte i.instrWord :: i.operandBytes = code at hbytes ⊢
  have hlen : code.length + rest.length = 6 := by
    rw [← List.length_append, hbytes, codeBytes, List.length_map, List.length_range]
  have hip : s.ip + BitVec.ofNat 16 0 = s.ip := BitVec.add_zero s.ip
  rw [← hip]
  refine codeAt_of_codeLocation fun k hk => ⟨hram (0 + k) (by omega), ?_⟩
  rw [Nat.zero_add, ← List.getElem_append_left (bs := rest) (h' := by simp; omega) hk]
  simp [hbytes, codeBytes]

theorem macroBegins_of_macroAt {s : State} {i : Instr} (h : macroAt s = some i) : MacroBegins s i := by
  unfold macroAt at h
  split at h
  · next begins =>
    obtain ⟨hrun, hstep, hword⟩ := begins
    split at h
    · next i' rest hdecode =>
      split at h
      · next hcode =>
        cases h
        rw [Bool.and_eq_true] at hcode
        obtain ⟨hram, hblock⟩ := hcode
        have reads := decodeInstr_readsAs hdecode
        exact ⟨hrun, hstep, hword, reads.wellFormed, reads.noControlWord,
          codeAt_of_readsAs reads (by simpa using hram), hblock⟩
      · cases h
    · cases h
  · cases h

/-- Where an instruction begins, the first tick is its FETCH. -/
theorem MacroBegins.fetch {s : State} {i : Instr} (h : MacroBegins s i) (n : Nat) :
    ticks (n + 1) s = ticks n (afterFetch i.instrWord s) := by
  rw [ticks_succ, h.word, tickWord_fetch h.run h.step h.code.word.1]

theorem MacroBegins.atOperands {s : State} {i : Instr} (h : MacroBegins s i) :
    AtOperands (afterFetch i.instrWord s) i.operandBytes :=
  ⟨h.run, rfl, h.code.word.2⟩

theorem MacroBegins.blockHolds {s : State} {i : Instr} (h : MacroBegins s i) :
    BlockHolds s (latchedBlock s i.instrWord) 0 (procedureOf s.zf i) :=
  exampleBlock_latchedBlock h.wellFormed h.noControlWord s ▸ blockHolds_of_blockIsExample h.block

theorem tickCount_eq_length {i : Instr} (hc : i.controlWord? = none) (z : Bool) :
    tickCount i = (procedureOf z i).length := by
  cases i
  case jz | jnz => cases z <;> rfl
  case nop | hlt | movRegImm16 | movRegImm8 | movRegReg | movMemImm | movRegMemw | movRegMemb | addRegReg | addRegImm16
      | subRegReg | subRegImm16 | shlRegImm8 | jmp | illegal => rfl
  all_goals cases hc

theorem MacroBegins.procedure_mem {s : State} {i : Instr} (h : MacroBegins s i) : procedureOf s.zf i ∈ exampleProcedures :=
  exampleBlock_latchedBlock h.wellFormed h.noControlWord s ▸ exampleBlock_mem _

/-- The net effect of an instruction is what the ticks of its block do (R97, R149): after FETCH the words of its procedure follow one
another, and their ticks give its meaning. -/
theorem MacroBegins.exec_eq_ticks {s : State} {i : Instr} (h : MacroBegins s i) : exec i s = ticks (tickCount i) s := by
  obtain ⟨hcons, hfall, -⟩ := exampleProcedure_shape h.procedure_mem
  have hold := h.blockHolds
  have hcount := tickCount_eq_length h.noControlWord s.zf
  rw [hcons] at hold hcount
  have run : ticks (procedureOf s.zf i).tail.length (afterFetch i.instrWord s) =
      .next (tickWords (procedureOf s.zf i).tail (afterFetch i.instrWord s)) :=
    ticks_eq_tickWords (s := s) rfl rfl hold.2 hfall
  rw [hcount, List.length_cons, h.fetch, run, exec_eq_tickWords h.noControlWord h.atOperands]

theorem MacroBegins.tickCount_bounds {s : State} {i : Instr} (h : MacroBegins s i) : 1 ≤ tickCount i ∧ tickCount i ≤ 5 := by
  obtain ⟨hcons, -, hlen⟩ := exampleProcedure_shape h.procedure_mem
  rw [tickCount_eq_length h.noControlWord s.zf]
  exact ⟨by rw [hcons]; exact Nat.succ_pos _, hlen⟩

theorem ticks_one (s : State) : ticks 1 s = engineTick s := by
  rw [ticks_succ, engineTick_eq]
  rfl

/-- Settles O57: the instruction of the example ROM that begins here is its ticks, and any other step is one tick. -/
theorem instructionStepIsTicks : Obligations.InstructionStepIsTicks := by
  intro s hgrain
  have hstep : step s = instructionStep s := by simp only [step, hgrain]
  rw [hstep, instructionStep]
  cases h : macroAt s with
  | some i =>
    have begins := macroBegins_of_macroAt h
    obtain ⟨hlow, hhigh⟩ := begins.tickCount_bounds
    exact ⟨tickCount i, hlow, hhigh, begins.exec_eq_ticks⟩
  | none => exact ⟨1, le_refl 1, by decide, (ticks_one s).symm⟩

end Sys2Proof.Machine

/-! SUPPORT. The bus sources and the width (41_bus_sources.md): what each code puts on its bus, in numbers, and the faults of a register
index. The end of a valid word is `performWord_ends`. -/

namespace Sys2Proof.Machine

open Claims (Ready Ends)

/-! ### What a source reads (R25, R117) -/

theorem widthRead_toNat_eq_half (wid : WidCode) (v : Word) : (widthRead wid v).toNat = Claims.half wid v := by
  rw [widthRead_toNat]
  cases wid <;> rfl

theorem regRead_toNat_eq_half {s : State} {i : Nibble} {r : Reg} (h : Reg.ofIndex i = some r) (wid : WidCode) :
    (regRead s i wid).toNat = Claims.half wid (s.getReg r) := by
  rw [regRead_eq h, widthRead_toNat_eq_half]

theorem regRead_eq_ofNat_half {s : State} {i : Nibble} {r : Reg} (h : Reg.ofIndex i = some r) (wid : WidCode) :
    regRead s i wid = BitVec.ofNat 16 (Claims.half wid (s.getReg r)) := by
  rw [← regRead_toNat_eq_half h, BitVec.ofNat_toNat, BitVec.setWidth_eq]

theorem and_low_eq_ofNat (v : Word) : v &&& (0x00FF : Word) = BitVec.ofNat 16 (v.toNat % 256) := by
  rw [← and_low_toNat, BitVec.ofNat_toNat, BitVec.setWidth_eq]

/-- The low byte is read at every byte width, `BYTEH` included. -/
theorem lowBits_eq_low (wid : WidCode) (v : Word) : lowBits wid v = Claims.low wid v := by
  cases wid
  case word => rfl
  all_goals exact and_low_eq_ofNat v

theorem widthBits_eq_ite (wid : WidCode) : widthBits wid = if wid = .word then 16 else 8 := by
  cases wid <;> rfl

/-- A valid word ends as its rules say, with the values that its sources put on the buses. -/
theorem exec_ends_of_buses {i : Instr} {cw : ControlWord} {s : State} {A B : Word} (hi : i.controlWord? = some cw)
    (h : Ready cw s) (hA : busA cw.ba cw.wid s = A) (hB : busB cw.bb cw.wid s = B) :
    ∃ t, exec i s = .next t ∧ Ends cw s A B (segValue cw.seg s) t := by
  subst hA hB
  exact ⟨performWord cw s, exec_of_ready hi h, performWord_ends cw h.1⟩

/-! ### The faults of a register index (R25, R174) -/

theorem indexFault_of_ge_eight {i : Nibble} (h : 8 ≤ i.toNat) (wid : WidCode) : indexFault i wid = some .badRegIndex :=
  if_pos h

theorem indexFault_of_wordReg {i : Nibble} {wid : WidCode} (h4 : 4 ≤ i.toNat) (h8 : i.toNat < 8) (hw : wid ≠ .word) :
    indexFault i wid = some .byteOfWordReg := by
  rw [indexFault, if_neg (not_le.mpr h8), if_pos ⟨h4, hw⟩]

theorem validate_of_index1Fault {cw : ControlWord} {s : State} {f : FaultReason} (hc : reservedCode cw = false)
    (ht : cw.targetOutOfRange = false) (h1 : usesR1 cw = true) (hf : indexFault s.index1 cw.wid = some f) :
    validate cw s = some f := by
  rw [validate_eq_or hc ht, if_pos h1, hf, Option.some_or, Option.some_or]

/-- The register of operand 2 is checked after that of operand 1, which this word does not use. -/
theorem validate_of_index2Fault {cw : ControlWord} {s : State} {f : FaultReason} (hc : reservedCode cw = false)
    (ht : cw.targetOutOfRange = false) (h1 : usesR1 cw = false) (h2 : usesR2 cw = true)
    (hf : indexFault s.index2 cw.wid = some f) : validate cw s = some f := by
  rw [validate_eq_or hc ht, if_neg (Bool.eq_false_iff.mp h1), if_pos h2, hf, Option.none_or, Option.some_or]

/-! ### The rows of BA (R103 to R108) -/

/-- Settles O29: each source's value is the one that the row's rule gives, and the row `R1` uses the register of operand 1. -/
theorem busARows : Obligations.BusARows := by
  intro cw s
  refine ⟨fun h => ?none, fun h => ?t0, fun h => ?t1, fun h => ?sp, fun h => ?ie, fun r hr h => ?r1,
    fun hs hrtn hc ht => ?fault⟩
  case none => exact exec_ends_of_buses rfl h rfl rfl
  case t0 => exact exec_ends_of_buses rfl h (lowBits_eq_low cw.wid s.t0) rfl
  case t1 => exact exec_ends_of_buses rfl h (lowBits_eq_low cw.wid s.t1) rfl
  case sp => exact exec_ends_of_buses rfl h (lowBits_eq_low cw.wid s.sp) rfl
  case ie =>
    have hie : (BitVec.ofBool s.ie).setWidth 16 = BitVec.ofNat 16 s.ie.toNat := by cases s.ie <;> rfl
    exact exec_ends_of_buses rfl h hie rfl
  case r1 => exact exec_ends_of_buses rfl h (regRead_eq_ofNat_half hr cw.wid) rfl
  case fault =>
    have fault {f : FaultReason} (hf : indexFault s.index1 cw.wid = some f) :
        exec (.baR1 cw) s = .next { s with run := .faulted f } :=
      exec_of_fault rfl hs hrtn (validate_of_index1Fault hc ht rfl hf)
    rw [← index1_toNat]
    exact ⟨fun h8 => fault (indexFault_of_ge_eight h8 cw.wid), fun h4 h8 hw => fault (indexFault_of_wordReg h4 h8 hw)⟩

/-! ### The rows of BB (R109 to R116) -/

/-- The checks read BB for the use of the register of operand 2 only. -/
theorem validate_withBb (cw : ControlWord) (s : State) {c : BbCode} (h : c ≠ .r2) :
    validate { cw with bb := c } s = validate { cw with bb := .none } s := by
  cases c
  case r2 => exact absurd rfl h
  all_goals rfl

theorem ready_withBb {cw : ControlWord} {s : State} (h : Ready { cw with bb := .none } s) {c : BbCode} (hc : c ≠ .r2) :
    Ready { cw with bb := c } s := by
  obtain ⟨hrun, hrtn, hvalid⟩ := h
  exact ⟨hrun, hrtn, (validate_withBb cw s hc).trans hvalid⟩

/-- A row of BB other than `R2` ends with its source on bus B wherever the row `NONE` is valid. -/
theorem exec_ends_withBb (c : BbCode) {i : Instr} {cw : ControlWord} {s : State} {B : Word}
    (hi : i.controlWord? = some { cw with bb := c }) (h : Ready { cw with bb := .none } s) (hc : c ≠ .r2)
    (hB : busB c cw.wid s = B) :
    ∃ t, exec i s = .next t ∧ Ends { cw with bb := c } s (busA cw.ba cw.wid s) B (segValue cw.seg s) t :=
  exec_ends_of_buses hi (ready_withBb h hc) rfl hB

/-- Settles O30: each source's value is the one that the row's rule gives, and the row `R2` uses the register of operand 2. -/
theorem busBRows : Obligations.BusBRows := by
  intro cw s
  refine ⟨fun h => ⟨?none, ?t0, ?t1, ?k1, ?k2, ?k4, ?k8⟩, fun r hr h => ?r2, fun hs hrtn hc ht h1 => ?fault⟩
  case none => exact exec_ends_of_buses rfl h rfl rfl
  case t0 => exact exec_ends_withBb .t0 rfl h (by decide) (lowBits_eq_low cw.wid s.t0)
  case t1 => exact exec_ends_withBb .t1 rfl h (by decide) (lowBits_eq_low cw.wid s.t1)
  case k1 => exact exec_ends_withBb .k1 rfl h (by decide) rfl
  case k2 => exact exec_ends_withBb .k2 rfl h (by decide) rfl
  case k4 => exact exec_ends_withBb .k4 rfl h (by decide) rfl
  case k8 => exact exec_ends_withBb .k8 rfl h (by decide) rfl
  case r2 => exact exec_ends_of_buses rfl h rfl (regRead_eq_ofNat_half hr cw.wid)
  case fault =>
    have fault {f : FaultReason} (hf : indexFault s.index2 cw.wid = some f) :
        exec (.bbR2 cw) s = .next { s with run := .faulted f } :=
      exec_of_fault (cw := { cw with bb := .r2 }) rfl hs hrtn (validate_of_index2Fault hc ht h1 rfl hf)
    rw [← index2_toNat]
    exact ⟨fun h8 => fault (indexFault_of_ge_eight h8 cw.wid), fun h4 h8 hw => fault (indexFault_of_wordReg h4 h8 hw)⟩

/-! ### The rows of WID (R98 to R102) -/

/-- Settles O31: the row's word ends as its phases say at the row's width, and the register sources read by it. -/
theorem widthRows : Obligations.WidthRows := by
  intro cw s wid h
  refine ⟨?ends, fun r hr hba => ?index1, fun r hr hbb => ?index2⟩
  case ends =>
    have ends := performWord_ends { cw with wid := wid } h.1
    rw [Ends, widthBits_eq_ite] at ends
    refine ⟨performWord { cw with wid := wid } s, exec_of_ready ?_ h, ends⟩
    cases wid <;> rfl
  case index1 =>
    rw [hba]
    exact regRead_toNat_eq_half hr wid
  case index2 =>
    rw [hbb]
    exact regRead_toNat_eq_half hr wid

end Sys2Proof.Machine

/-! SUPPORT. The ALU (42_alu.md): each operation as a result below 2^w and a carry, in exact arithmetic, and the end of a row of ALU
from its operation's result and carry. The end of a valid word is `performWord_ends`. -/

namespace Sys2Proof.Machine

open Claims (Ready Ends EndsAlu aOf bOf amount)

/-! ### The result and the flags read off it (R118) -/

/-- The top bit of a w-bit number says whether the number is in the upper half of its range. -/
theorem testBit_pred_eq_decide_le {w r : Nat} (hw : 0 < w) (hr : r < 2 ^ w) :
    r.testBit (w - 1) = decide (2 ^ (w - 1) ≤ r) := by
  by_cases hle : 2 ^ (w - 1) ≤ r
  · have below : r < 2 ^ (w - 1 + 1) := by rwa [Nat.sub_add_cancel hw]
    rw [Nat.testBit_of_two_pow_le_and_two_pow_add_one_gt hle below, decide_eq_true hle]
  · rw [Nat.testBit_lt_two_pow (not_le.mp hle), decide_eq_false hle]

theorem aluOut_of_lt {w r : Nat} (hw : 0 < w) (hr : r < 2 ^ w) (c : Bool) :
    aluOut w r c = { d := BitVec.ofNat 16 r, z := decide (r = 0), c := c, s := decide (2 ^ (w - 1) ≤ r) } := by
  rw [aluOut, testBit_pred_eq_decide_le hw hr]

/-! ### The operations (R119 to R126) -/

section
variable {w a b : Nat}

/-- 2^w is added before the subtraction, to stay in the naturals. -/
theorem sub_mod_two_pow_eq_toNat (hb : b < 2 ^ w) (a : Nat) :
    (a + 2 ^ w - b) % 2 ^ w = (((a : Int) - b) % 2 ^ w).toNat := by
  have wraps : ((a + 2 ^ w - b : Nat) : Int) = (a : Int) - b + 2 ^ w := by
    rw [Int.natCast_sub (by omega)]
    push_cast
    omega
  rw [← Int.add_emod_right, ← wraps]
  exact (Int.toNat_natCast _).symm

theorem aluSub_eq (hb : b < 2 ^ w) (a : Nat) :
    aluSub w a b = aluOut w (((a : Int) - b) % 2 ^ w).toNat (decide (a < b)) := by
  rw [aluSub, sub_mod_two_pow_eq_toNat hb]

theorem aluShl_eq (ha : a < 2 ^ w) (n : Nat) :
    aluShl w a n = aluOut w (if n ≤ w then a * 2 ^ n % 2 ^ w else 0)
      (decide (n ≠ 0 ∧ n ≤ w ∧ a / 2 ^ (w - n) % 2 = 1)) := by
  by_cases h0 : n = 0
  · simp [aluShl, h0, Nat.mod_eq_of_lt ha]
  · by_cases hw : n ≤ w
    · simp [aluShl, h0, hw, Nat.shiftLeft_eq, Nat.testBit_eq_decide_div_mod_eq]
    · simp [aluShl, h0, hw]

theorem aluShr_eq (a n : Nat) :
    aluShr w a n = aluOut w (if n ≤ w then a / 2 ^ n else 0)
      (decide (n ≠ 0 ∧ n ≤ w ∧ a / 2 ^ (n - 1) % 2 = 1)) := by
  by_cases h0 : n = 0
  · simp [aluShr, h0]
  · by_cases hw : n ≤ w
    · simp [aluShr, h0, hw, Nat.shiftRight_eq_div_pow, Nat.testBit_eq_decide_div_mod_eq]
    · simp [aluShr, h0, hw]

theorem shl_result_lt (a n : Nat) : (if n ≤ w then a * 2 ^ n % 2 ^ w else 0) < 2 ^ w := by
  split
  · exact Nat.mod_lt _ (Nat.two_pow_pos w)
  · exact Nat.two_pow_pos w

theorem shr_result_lt (ha : a < 2 ^ w) (n : Nat) : (if n ≤ w then a / 2 ^ n else 0) < 2 ^ w := by
  split
  · exact Nat.lt_of_le_of_lt (Nat.div_le_self a _) ha
  · exact Nat.two_pow_pos w

end

/-! ### The rows of ALU -/

theorem widthBits_pos (wid : WidCode) : 0 < widthBits wid := by
  cases wid <;> decide

theorem aOf_lt (cw : ControlWord) (s : State) : aOf cw s < 2 ^ widthBits cw.wid := Nat.mod_lt _ (Nat.two_pow_pos _)

theorem bOf_lt (cw : ControlWord) (s : State) : bOf cw s < 2 ^ widthBits cw.wid := Nat.mod_lt _ (Nat.two_pow_pos _)

/-- The checks do not read ALU, so the codes of ALU are valid together. -/
theorem ready_withAlu {cw : ControlWord} {s : State} (h : Ready { cw with alu := .none } s) (op : AluCode) :
    Ready { cw with alu := op } s := h

theorem endsAlu_of_ends {cw : ControlWord} {s t : State} {A B : Word} {r : Nat} {c : Bool}
    (h : Ends cw s A B (segValue cw.seg s) t) (halu : alu cw.alu A B (widthBits cw.wid) = aluOut (widthBits cw.wid) r c)
    (hr : r < 2 ^ widthBits cw.wid) : EndsAlu cw s r c t := by
  rw [Ends, halu, aluOut_of_lt (widthBits_pos cw.wid) hr] at h
  exact h

/-- A row of ALU ends with its operation's result and carry wherever the row `NONE` is valid. -/
theorem exec_endsAlu_withAlu (op : AluCode) {i : Instr} {cw : ControlWord} {s : State} {r : Nat} {c : Bool}
    (hi : i.controlWord? = some { cw with alu := op }) (h : Ready { cw with alu := .none } s)
    (halu : alu op (busA cw.ba cw.wid s) (busB cw.bb cw.wid s) (widthBits cw.wid) = aluOut (widthBits cw.wid) r c)
    (hr : r < 2 ^ widthBits cw.wid) :
    ∃ t, exec i s = .next t ∧ EndsAlu { cw with alu := op } s r c t := by
  obtain ⟨t, ht, ends⟩ := exec_ends_of_buses hi (ready_withAlu h op) rfl rfl
  exact ⟨t, ht, endsAlu_of_ends ends halu hr⟩

/-- Settles O32: the sum is the model's own; the difference is the exact one reduced modulo 2^w. -/
theorem arithmeticRows : Obligations.ArithmeticRows := by
  intro cw s h
  refine ⟨?add, ?sub⟩
  case add => exact exec_endsAlu_withAlu .add rfl h rfl (Nat.mod_lt _ (Nat.two_pow_pos _))
  case sub =>
    have hb := bOf_lt cw s
    have inRange : (((aOf cw s : Int) - bOf cw s) % 2 ^ widthBits cw.wid).toNat < 2 ^ widthBits cw.wid := by
      rw [← sub_mod_two_pow_eq_toNat hb]
      exact Nat.mod_lt _ (Nat.two_pow_pos _)
    exact exec_endsAlu_withAlu .sub rfl h (aluSub_eq hb _) inRange

/-- Settles O33: a bitwise operation on two w-bit numbers stays below 2^w, and `NONE` writes no flag. -/
theorem logicRows : Obligations.LogicRows := by
  intro cw s h
  have ha := aOf_lt cw s
  have hb := bOf_lt cw s
  refine ⟨?none, ?or, ?xor, ?and⟩
  case none =>
    obtain ⟨t, ht, ends⟩ := exec_endsAlu_withAlu .none (i := .aluNone cw) rfl h rfl (Nat.or_lt_two_pow ha hb)
    exact ⟨t, ht, ends, ends.zf, ends.cf, ends.sf⟩
  case or => exact exec_endsAlu_withAlu .or rfl h rfl (Nat.or_lt_two_pow ha hb)
  case xor => exact exec_endsAlu_withAlu .xor rfl h rfl (Nat.xor_lt_two_pow ha hb)
  case and => exact exec_endsAlu_withAlu .and rfl h rfl (Nat.and_lt_two_pow _ hb)

/-- Settles O34: the shift is by B[3:0], which the width does not cut, and its carry is the bit of A that leaves last. -/
theorem shiftRows : Obligations.ShiftRows := by
  intro cw s h
  have ha := aOf_lt cw s
  refine ⟨?shl, ?shr⟩
  case shl =>
    exact exec_endsAlu_withAlu .shl rfl h (aluShl_eq ha (amount cw s)) (shl_result_lt _ _)
  case shr =>
    exact exec_endsAlu_withAlu .shr rfl h (aluShr_eq _ (amount cw s)) (shr_result_lt ha _)

end Sys2Proof.Machine

/-! SUPPORT. The memory phase, the latches and the destinations (43_memory_and_latch.md): the end of a valid word taken apart into what
its DST, its LAT and its `WRT` change of the word without them, and the checks of a word with and without its memory operation. -/

namespace Sys2Proof.Machine

open Claims (Ready Ends TickEnd)

/-! ### The checks of a valid word (R174) -/

/-- A word is valid exactly if each of its checks passes. -/
theorem validate_eq_none_iff {cw : ControlWord} {s : State} :
    validate cw s = none ↔
      (reservedCode cw = false ∧ cw.targetOutOfRange = false) ∧
      (usesR1 cw = true → indexFault s.index1 cw.wid = none) ∧
      (usesR2 cw = true → indexFault s.index2 cw.wid = none) ∧ segmentFault cw s = none := by
  by_cases hc : reservedCode cw = true
  · simp [validate_of_reservedCode hc, hc]
  by_cases ht : cw.targetOutOfRange = true
  · simp [validate_of_targetOutOfRange (eq_false_of_ne_true hc) ht, ht]
  rw [validate_eq_or (eq_false_of_ne_true hc) (eq_false_of_ne_true ht)]
  simp [hc, ht, and_assoc]

/-- The segment is checked last, and with a memory operation only. -/
theorem validate_eq_segmentFault {cw : ControlWord} {s : State} (h : validate { cw with mem := .none } s = none) :
    validate cw s = segmentFault cw s := by
  obtain ⟨⟨hc, ht⟩, h1, h2, -⟩ := validate_eq_none_iff.mp h
  have index1 : (if usesR1 cw then indexFault s.index1 cw.wid else none) = none := ite_eq_right_iff.mpr h1
  have index2 : (if usesR2 cw then indexFault s.index2 cw.wid else none) = none := ite_eq_right_iff.mpr h2
  rw [validate_eq_or (cw := cw) hc ht, index1, index2, Option.none_or, Option.none_or]

/-- A word that is valid with its memory operation is valid without it. -/
theorem ready_withMem_none {cw : ControlWord} {s : State} {c : MemCode} (h : Ready { cw with mem := c } s) :
    Ready { cw with mem := .none } s := by
  obtain ⟨hrun, hrtn, hvalid⟩ := h
  obtain ⟨codes, h1, h2, -⟩ := validate_eq_none_iff.mp hvalid
  exact ⟨hrun, hrtn, validate_eq_none_iff.mpr ⟨codes, h1, h2, rfl⟩⟩

/-- Without a memory operation the checks read SEG for the reserved codes only. -/
theorem validate_withSeg {cw : ControlWord} (hmem : cw.mem = .none) (s : State) {c : SegCode}
    (hc : c ∉ [.reserved6, .reserved7]) : validate { cw with seg := c } s = validate { cw with seg := .none } s := by
  have noSegment (c : SegCode) : segmentFault { cw with seg := c } s = none := if_pos hmem
  simp only [validate, noSegment]
  cases c
  case reserved6 | reserved7 => simp at hc
  all_goals rfl

/-- The checks read LAT for the reserved code only. -/
theorem validate_withLat (cw : ControlWord) (s : State) {c : LatCode} (h : c ≠ .reserved3) :
    validate { cw with lat := c } s = validate { cw with lat := .none } s := by
  cases c
  case reserved3 => exact absurd rfl h
  all_goals rfl

/-- The checks read DST for the reserved code and the two register operands only. -/
theorem validate_withDst (cw : ControlWord) (s : State) {c : DstCode} (h : c ∉ [.reserved7, .r1, .r2]) :
    validate { cw with dst := c } s = validate { cw with dst := .none } s := by
  cases c
  case reserved7 | r1 | r2 => simp at h
  all_goals rfl

/-- A word that is valid with a destination is valid without it. -/
theorem ready_withDst_none {cw : ControlWord} {s : State} {c : DstCode} (h : Ready { cw with dst := c } s) :
    Ready { cw with dst := .none } s := by
  obtain ⟨hrun, hrtn, hvalid⟩ := h
  obtain ⟨⟨hc, ht⟩, h1, h2, hseg⟩ := validate_eq_none_iff.mp hvalid
  have codes : reservedCode { cw with dst := .none } = false := by
    simp only [reservedCode, Bool.or_eq_false_iff] at hc ⊢
    simp [hc]
  have uses1 : usesR1 { cw with dst := .none } = true → usesR1 { cw with dst := c } = true := by
    simp +contextual [usesR1]
  have uses2 : usesR2 { cw with dst := .none } = true → usesR2 { cw with dst := c } = true := by
    simp +contextual [usesR2]
  exact ⟨hrun, hrtn, validate_eq_none_iff.mpr ⟨⟨codes, ht⟩, h1 ∘ uses1, h2 ∘ uses2, hseg⟩⟩

/-! ### The phases of a valid word, taken apart (R79) -/

/-- `v` with the components that a destination can be (R142 to R148), the registers, T0, T1 and IE, taken from `u`. -/
def State.withDestinationsOf (v u : State) : State :=
  { v with r0 := u.r0, r1 := u.r1, r2 := u.r2, r3 := u.r3, sp := u.sp, ss := u.ss, cs := u.cs, ds := u.ds
           t0 := u.t0, t1 := u.t1, ie := u.ie }

/-- A register write reads and writes registers only. -/
theorem regWrite_withDestinationsOf (v u : State) (i : Nibble) (wid : WidCode) (d : Word) :
    regWrite (v.withDestinationsOf u) i wid d = v.withDestinationsOf (regWrite u i wid d) := by
  cases h : Reg.ofIndex i with
  | none => simp only [regWrite, h]
  | some r =>
    rw [regWrite_eq h, regWrite_eq h]
    cases r <;> rfl

/-- A destination's write reads and writes nothing but what a destination can be. -/
theorem destPhase_withDestinationsOf (v u : State) (dst : DstCode) (wid : WidCode) (s : State) (d : Word) :
    destPhase dst wid s d (v.withDestinationsOf u) = v.withDestinationsOf (destPhase dst wid s d u) := by
  cases dst
  case r1 | r2 => exact regWrite_withDestinationsOf v u _ wid d
  all_goals rfl

theorem flagPhase_withDestinationsOf (v u : State) (op : AluCode) (out : AluOut) :
    flagPhase op out (v.withDestinationsOf u) = (flagPhase op out v).withDestinationsOf u := by
  cases op <;> rfl

/-- The phases after the memory phase, from the ALU's output, the data bus and the memory. -/
def writePhases (cw : ControlWord) (s : State) (out : AluOut) (d : Word) (m : Memory) : State :=
  { flagPhase cw.alu out (destPhase cw.dst cw.wid s d (latchPhase cw.lat s d { s with mem := m })) with
    ip := ipControl cw.ipc d s.ip
    stepCtr := nextStep cw s
    run := haltControl cw.ipc s.run }

theorem performWord_eq_writePhases (cw : ControlWord) (s : State) :
    performWord cw s =
      writePhases cw s (aluPhase cw s) (dataOf cw s) (memoryPhase cw s (aluPhase cw s).d).2 := rfl

section
variable (cw : ControlWord) (s : State) (out : AluOut) (d : Word) (m : Memory)

/-- A destination's write, and what the other fields write of the components that no destination can be. -/
theorem writePhases_eq_withDestinationsOf :
    writePhases cw s out d m =
      (writePhases { cw with dst := .none } s out d m).withDestinationsOf (destPhase cw.dst cw.wid s d s) := by
  have latched : latchPhase cw.lat s d { s with mem := m } =
      (latchPhase cw.lat s d { s with mem := m }).withDestinationsOf s := by
    cases cw.lat <;> rfl
  rw [writePhases, latched, destPhase_withDestinationsOf, flagPhase_withDestinationsOf]
  rfl

/-- DST is read for the destination only: its write can be made at the end of the word without it. -/
theorem writePhases_eq_destPhase :
    writePhases cw s out d m = destPhase cw.dst cw.wid s d (writePhases { cw with dst := .none } s out d m) := by
  have own := writePhases_eq_withDestinationsOf { cw with dst := .none } s out d m
  rw [writePhases_eq_withDestinationsOf, own, destPhase_withDestinationsOf]
  rfl

/-- LAT is read for the latches only: they can be written at the end of the word without it. -/
theorem writePhases_eq_latchPhase :
    writePhases cw s out d m = latchPhase cw.lat s d (writePhases { cw with lat := .none } s out d m) := by
  rw [writePhases_eq_withDestinationsOf, writePhases_eq_withDestinationsOf { cw with lat := .none }]
  simp only [writePhases, destPhase]
  cases cw.lat <;> cases cw.alu <;> rfl

/-- The memory is put in place and not read again. -/
theorem writePhases_withMem (m' : Memory) :
    writePhases cw s out d m' = { writePhases cw s out d m with mem := m' } := by
  rw [writePhases_eq_withDestinationsOf, writePhases_eq_withDestinationsOf cw s out d m]
  simp only [writePhases, destPhase]
  cases cw.lat <;> cases cw.alu <;> rfl

end

theorem performWord_withDst (cw : ControlWord) (s : State) (c : DstCode) :
    performWord { cw with dst := c } s =
      destPhase c cw.wid s (dataOf cw s) (performWord { cw with dst := .none } s) := by
  rw [performWord_eq_writePhases, writePhases_eq_destPhase]
  rfl

theorem performWord_withLat (cw : ControlWord) (s : State) (c : LatCode) :
    performWord { cw with lat := c } s =
      latchPhase c s (dataOf cw s) (performWord { cw with lat := .none } s) := by
  rw [performWord_eq_writePhases, writePhases_eq_latchPhase]
  rfl

/-- The data bus of `WRT` is the ALU's result, as it is without a memory operation. -/
theorem performWord_withMem_wrt (cw : ControlWord) (s : State) :
    performWord { cw with mem := .wrt } s =
      { performWord { cw with mem := .none } s with
        mem := s.mem.write cw.wid (segValue cw.seg s) s.t0 (aluPhase cw s).d } := by
  rw [performWord_eq_writePhases, writePhases_withMem _ _ _ _ s.mem]
  rfl

/-- Without a memory operation the phases do not read SEG. -/
theorem performWord_withSeg {cw : ControlWord} (hmem : cw.mem = .none) (s : State) (c : SegCode) :
    performWord { cw with seg := c } s = performWord { cw with seg := .none } s := by
  simp only [performWord, memoryPhase, hmem]
  rfl

/-! ### The rows of LAT (R139 to R141) -/

theorem mergeFlags_of_oneOperand (s : State) {w : Word} (h : w.getLsbD 15 = true) :
    mergeFlags s w = (w.extractLsb' 7 9 ++ BitVec.ofBool s.sf ++ BitVec.ofBool s.cf ++ BitVec.ofBool s.zf ++
      w.extractLsb' 0 4).cast rfl := by
  rw [mergeFlags, if_pos h]
  ext i hi
  rw [BitVec.getElem_cast]
  simp only [BitVec.getElem_append]
  interval_cases i <;> simp

/-- The merge of the flags in numbers (R140). -/
theorem mergeFlags_eq_latched (s : State) (w : Word) : mergeFlags s w = Claims.latched s w := by
  by_cases h : w.getLsbD 15 = true
  · rw [Claims.latched, if_pos ((getLsbD_15_eq_true_iff w).mp h), mergeFlags_of_oneOperand s h]
    apply BitVec.eq_of_toNat_eq
    simp only [BitVec.toNat_cast, toNat_append_eq_add, extractLsb'_toNat_eq_div_mod, BitVec.toNat_ofBool,
      BitVec.toNat_ofNat]
    have := s.sf.toNat_le
    have := s.cf.toNat_le
    have := s.zf.toNat_le
    omega
  · rw [Claims.latched, if_neg (h ∘ (getLsbD_15_eq_true_iff w).mpr), mergeFlags, if_neg h]

/-- A code of LAT that is not reserved latches the data bus at the end of the word without it. -/
theorem exec_of_ready_withLat (c : LatCode) {i : Instr} {cw : ControlWord} {s : State}
    (hi : i.controlWord? = some { cw with lat := c }) (h : Ready { cw with lat := .none } s) (hc : c ≠ .reserved3) :
    exec i s = .next (latchPhase c s (Claims.dataBus cw s) (performWord { cw with lat := .none } s)) := by
  obtain ⟨hrun, hrtn, hvalid⟩ := h
  rw [exec_of_ready hi ⟨hrun, hrtn, (validate_withLat cw s hc).trans hvalid⟩, performWord_withLat,
    dataBus_eq_dataOf]

/-- Settles O28: the rows of LAT end alike but for what they latch, and the merge is the one of R140. -/
theorem latchRows : Obligations.LatchRows := by
  intro cw s h
  refine ⟨performWord { cw with lat := .none } s, exec_of_ready rfl h, performWord_iw .., performWord_ow .., ?ii, ?oi,
    ?reserved⟩
  case ii =>
    rw [← mergeFlags_eq_latched]
    exact exec_of_ready_withLat .ii rfl h (by decide)
  case oi => exact exec_of_ready_withLat .oi rfl h (by decide)
  case reserved =>
    obtain ⟨hrun, hrtn, -⟩ := h
    exact exec_of_reservedCode (cw := { cw with lat := .reserved3 }) rfl hrun hrtn (by simp [reservedCode])

/-! ### The rows of SEG (R129 to R134) -/

theorem segValue_segi {s : State} {r : Reg} (h : Reg.ofIndex s.index1 = some r) : segValue .segi s = s.getReg r :=
  regRead_eq h .word

theorem segValue_sego {s : State} {r : Reg} (h : Reg.ofIndex s.segIndex2 = some r) : segValue .sego s = s.getReg r :=
  regRead_eq h .word

theorem isSegmentIndex_eq_isSeg (i : Nibble) : isSegmentIndex i = Claims.isSeg i.toNat := by
  revert i; decide

/-- A valid word ends as its rules say, with the segment value that its SEG code gives. -/
theorem exec_ends_of_segValue {i : Instr} {cw : ControlWord} {s : State} {seg : Word} (hi : i.controlWord? = some cw)
    (h : Ready cw s) (hseg : segValue cw.seg s = seg) :
    ∃ t, exec i s = .next t ∧ Ends cw s (busA cw.ba cw.wid s) (busB cw.bb cw.wid s) seg t := by
  subst hseg
  exact exec_ends_of_buses hi h rfl rfl

/-- The rules do not read the segment value of a word without a memory operation. -/
theorem ends_of_memNone {cw : ControlWord} (hmem : cw.mem = .none) {s t : State} {A B seg : Word}
    (h : Ends cw s A B seg t) (seg' : Word) : Ends cw s A B seg' t := by
  simpa only [Ends, Claims.bus, hmem] using h

/-- A row of SEG that is not reserved ends as the row `NONE` does, without a memory operation. -/
theorem exec_of_ready_withSeg (c : SegCode) {i : Instr} {cw : ControlWord} {s : State}
    (hi : i.controlWord? = some { cw with seg := c }) (hmem : cw.mem = .none) (h : Ready { cw with seg := .none } s)
    (hc : c ∉ [.reserved6, .reserved7]) : exec i s = .next (performWord { cw with seg := .none } s) := by
  obtain ⟨hrun, hrtn, hvalid⟩ := h
  rw [exec_of_ready hi ⟨hrun, hrtn, (validate_withSeg hmem s hc).trans hvalid⟩, performWord_withSeg hmem]

/-- A word whose segment is the first thing wrong takes the segment's fault. -/
theorem exec_of_segmentFault {i : Instr} {cw : ControlWord} {s : State} {f : FaultReason} (hi : i.controlWord? = some cw)
    (hs : s.run = .fetching) (hr : cw.ipc ≠ .rtn) (hv : validate { cw with mem := .none } s = none)
    (hf : segmentFault cw s = some f) : exec i s = .next { s with run := .faulted f } :=
  exec_of_fault hi hs hr ((validate_eq_segmentFault hv).trans hf)

/-- Settles O35: the segment value is the one that the row's rule gives; it is read with a memory operation only, and so are its
faults, after every other check. -/
theorem segmentRows : Obligations.SegmentRows := by
  intro cw s
  refine ⟨fun h => ?cs, fun h => ?ss, fun r hr h => ?segi, fun r hr h => ?sego, fun hmem h => ?noAccess,
    fun hs hrtn hmem hv => ?fault⟩
  case cs => exact exec_ends_of_segValue rfl h rfl
  case ss => exact exec_ends_of_segValue rfl h rfl
  case segi => exact exec_ends_of_segValue rfl h (segValue_segi hr)
  case sego => exact exec_ends_of_segValue rfl h (segValue_sego hr)
  case noAccess =>
    exact ⟨performWord { cw with seg := .none } s, exec_of_ready rfl h,
      ends_of_memNone (cw := { cw with seg := .none }) hmem (performWord_ends { cw with seg := .none } h.1),
      exec_of_ready_withSeg .cs rfl hmem h (by decide), exec_of_ready_withSeg .ss rfl hmem h (by decide),
      exec_of_ready_withSeg .segi rfl hmem h (by decide), exec_of_ready_withSeg .sego rfl hmem h (by decide),
      exec_of_ready_withSeg .int rfl hmem h (by decide)⟩
  case fault =>
    have fault (c : SegCode) {i : Instr} {f : FaultReason} (hi : i.controlWord? = some { cw with seg := c })
        (hc : c ∉ [.reserved6, .reserved7]) (hf : segmentFault { cw with seg := c } s = some f) :
        exec i s = .next { s with run := .faulted f } :=
      exec_of_segmentFault hi hs hrtn ((validate_withSeg (cw := { cw with mem := .none }) rfl s hc).trans hv) hf
    refine ⟨fault .none rfl (by decide) (if_neg hmem), fault .int rfl (by decide) (if_neg hmem), fun hi => ?segi,
      fun hi => ?sego⟩
    case segi =>
      rw [← index1_toNat, ← isSegmentIndex_eq_isSeg] at hi
      exact fault .segi rfl (by decide) (by simp [segmentFault, hmem, hi])
    case sego =>
      rw [← segIndex2_toNat, ← isSegmentIndex_eq_isSeg] at hi
      exact fault .sego rfl (by decide) (by simp [segmentFault, hmem, hi])

/-! ### The rows of MEM (R135 to R138) -/

/-- The segment's fault does not depend on which of the three accesses the word makes. -/
theorem segmentFault_withMem {m n : MemCode} (hm : m ≠ .none) (hn : n ≠ .none) (cw : ControlWord) (s : State) :
    segmentFault { cw with mem := m } s = segmentFault { cw with mem := n } s :=
  (if_neg hm).trans (if_neg hn).symm

/-- Settles O36: each row's data bus and memory are those of its memory phase, and an access meets the segment's fault before. -/
theorem memoryRows : Obligations.MemoryRows := by
  intro cw s
  refine ⟨fun h => ?none, fun h => ?rdip, fun h => ?rdt, fun h => ?wrt, fun hs hrtn hv f hf => ?fault⟩
  case none => exact ⟨_, exec_of_ready rfl h, performWord_tickEnd { cw with mem := .none } h.1⟩
  case rdip => exact ⟨_, exec_of_ready rfl h, performWord_tickEnd { cw with mem := .rdip } h.1⟩
  case rdt => exact ⟨_, exec_of_ready rfl h, performWord_tickEnd { cw with mem := .rdt } h.1⟩
  case wrt =>
    refine ⟨performWord { cw with mem := .none } s, exec_of_ready rfl (ready_withMem_none h), ?_⟩
    rw [exec_of_ready (cw := { cw with mem := .wrt }) rfl h, performWord_withMem_wrt]
    rfl
  case fault =>
    have fault (m : MemCode) {i : Instr} (hi : i.controlWord? = some { cw with mem := m }) (hm : m ≠ .none) :
        exec i s = .next { s with run := .faulted f } :=
      exec_of_segmentFault hi hs hrtn hv ((segmentFault_withMem hm (by decide) cw s).trans hf)
    exact ⟨fault .rdip rfl (by decide), fault .rdt rfl (by decide), fault .wrt rfl (by decide)⟩

/-! ### The rows of DST (R142 to R148) -/

/-- A valid word writes its destination at the end of the word without it. -/
theorem exec_of_ready_withDst (c : DstCode) {i : Instr} {cw : ControlWord} {s : State}
    (hi : i.controlWord? = some { cw with dst := c }) (h : Ready { cw with dst := c } s) :
    exec i s = .next (destPhase c cw.wid s (Claims.dataBus cw s) (performWord { cw with dst := .none } s)) := by
  rw [exec_of_ready hi h, performWord_withDst, dataBus_eq_dataOf]

/-- A destination without an index is valid where the row `NONE` is. -/
theorem ready_withDst {cw : ControlWord} {s : State} (h : Ready { cw with dst := .none } s) {c : DstCode}
    (hc : c ∉ [.reserved7, .r1, .r2]) : Ready { cw with dst := c } s := by
  obtain ⟨hrun, hrtn, hvalid⟩ := h
  exact ⟨hrun, hrtn, (validate_withDst cw s hc).trans hvalid⟩

theorem destPhase_ie_eq (wid : WidCode) (s : State) (d : Word) (u : State) :
    destPhase .ie wid s d u = { u with ie := decide (d.toNat % 2 = 1) } :=
  congrArg (fun b => { u with ie := b }) (destPhase_ie .ie wid s d u)

theorem performWord_dstNone_getReg (cw : ControlWord) (s : State) (r : Reg) :
    (performWord { cw with dst := .none } s).getReg r = s.getReg r := by
  simp [performWord_getReg]

/-- Settles O37: each row ends with its one write made on the end of the row `NONE`. -/
theorem directDestinationRows : Obligations.DirectDestinationRows := by
  intro cw s h
  refine ⟨performWord { cw with dst := .none } s, exec_of_ready rfl h, performWord_dstNone_getReg cw s,
    performWord_t0 .., performWord_t1 .., performWord_ie .., ?t0, ?t1, ?sp, ?ie, ?reserved⟩
  case t0 => exact exec_of_ready_withDst .t0 rfl (ready_withDst h (by decide))
  case t1 => exact exec_of_ready_withDst .t1 rfl (ready_withDst h (by decide))
  case sp => exact exec_of_ready_withDst .sp rfl (ready_withDst h (by decide))
  case ie =>
    rw [exec_of_ready_withDst .ie rfl (ready_withDst h (by decide)), destPhase_ie_eq]
  case reserved =>
    obtain ⟨hrun, hrtn, -⟩ := h
    exact exec_of_reservedCode (cw := { cw with dst := .reserved7 }) rfl hrun hrtn (by simp [reservedCode])

/-- A destination by index takes the data bus by the width code, in the register that the index names. -/
theorem exec_of_ready_withRegWrite (c : DstCode) {i : Instr} {cw : ControlWord} {s : State} {index : Nibble} {r : Reg}
    (hi : i.controlWord? = some { cw with dst := c }) (h : Ready { cw with dst := c } s)
    (hc : ∀ wid d u, destPhase c wid s d u = regWrite u index wid d) (hr : Reg.ofIndex index = some r) :
    exec i s = .next ((performWord { cw with dst := .none } s).setReg r
      (widthWrite cw.wid (s.getReg r) (Claims.dataBus cw s))) := by
  rw [exec_of_ready_withDst c hi h, hc, regWrite_eq hr, performWord_dstNone_getReg]

/-- Settles O38: the index is that of the start of the tick, in the write and in the faults, and the register's value before is the one
of the start of the tick. -/
theorem indexedDestinationRows : Obligations.IndexedDestinationRows := by
  intro cw s
  refine ⟨fun r hr h => ?r1, fun r hr h => ?r2, fun hs hrtn hc ht => ?fault⟩
  case r1 =>
    exact ⟨_, _, exec_of_ready rfl (ready_withDst_none h),
      exec_of_ready_withRegWrite .r1 rfl h (fun _ _ _ => rfl) hr, widthWrite_toNat_eq_merged ..⟩
  case r2 =>
    exact ⟨_, _, exec_of_ready rfl (ready_withDst_none h),
      exec_of_ready_withRegWrite .r2 rfl h (fun _ _ _ => rfl) hr, widthWrite_toNat_eq_merged ..⟩
  case fault =>
    have fault1 {f : FaultReason} (hf : indexFault s.index1 cw.wid = some f) :
        exec (.dstR1 cw) s = .next { s with run := .faulted f } :=
      exec_of_fault (cw := { cw with dst := .r1 }) rfl hs hrtn
        (validate_of_index1Fault hc ht (by simp [usesR1]) hf)
    have fault2 {f : FaultReason} (hba : cw.ba ≠ .r1) (hf : indexFault s.index2 cw.wid = some f) :
        exec (.dstR2 cw) s = .next { s with run := .faulted f } :=
      exec_of_fault (cw := { cw with dst := .r2 }) rfl hs hrtn
        (validate_of_index2Fault hc ht (by simp [usesR1, hba]) (by simp [usesR2]) hf)
    rw [← index1_toNat, ← index2_toNat]
    exact ⟨fun h8 => fault1 (indexFault_of_ge_eight h8 cw.wid), fun h4 h8 hw => fault1 (indexFault_of_wordReg h4 h8 hw),
      fun hba h8 => fault2 hba (indexFault_of_ge_eight h8 cw.wid),
      fun hba h4 h8 hw => fault2 hba (indexFault_of_wordReg h4 h8 hw)⟩

end Sys2Proof.Machine

/-! SUPPORT. The instructions of the example ROM (44_macro_instructions.md R150 to R170). In order: the decoder reads back the
encoder's words, the words of the example ROM, an encoding and a latched word in numbers, what an instruction does to the state in
one update, and each instruction against its rule. That its ticks do the same is `MacroBegins.exec_eq_ticks`. -/

namespace Sys2Proof

/-! ### Decoding an encoded instruction word (R66, R67, R70, R152) -/

theorem encode_of_instrWord {i : Instr} (hc : i.controlWord? = none) :
    encode i = highByte i.instrWord :: lowByte i.instrWord :: i.operandBytes := by
  rw [encode, hc]
  rfl

theorem controlWord?_eq_none_of_field? {i : Instr} (h : i.field? = none) : i.controlWord? = none := by
  cases i
  case nop | hlt | movRegImm16 | movRegImm8 | movRegReg | movMemImm | movRegMemw | movRegMemb | addRegReg | addRegImm16
      | subRegReg | subRegImm16 | shlRegImm8 | jmp | jz | jnz | illegal => rfl
  all_goals cases h

theorem wellFormed_illegal_iff {w : Word} : (Instr.illegal w).WellFormed ↔ isDeclared w = false := by
  rw [Instr.WellFormed, Instr.wellFormed, Bool.not_eq_true']

theorem takeWord_bytes (name : String) (k : Word → Instr) (v : Word) (rest : List Byte) :
    takeWord name k (highByte v :: lowByte v :: rest) = .ok (k v, rest) := by
  rw [takeWord, wordOfBytes_high_low]

theorem takeTwoWords_bytes (name : String) (k : Word → Word → Instr) (v v' : Word) (rest : List Byte) :
    takeTwoWords name k (highByte v :: lowByte v :: highByte v' :: lowByte v' :: rest) = .ok (k v v', rest) := by
  rw [takeTwoWords, wordOfBytes_high_low, wordOfBytes_high_low]

theorem withIndex_block {block : Word} (h : block &&& 0x7FF0 = block) (r : Nibble) :
    withIndex block r &&& 0xFFF0 = block := by
  rw [← h]
  unfold withIndex
  ext i hi
  interval_cases i <;> simp

theorem oneOperandWord_slot {group : Word} (h : group &&& 0xFF80 = group) (slot : BitVec 3) (low : Nibble) :
    (oneOperandWord group slot low).extractLsb' 4 3 = slot := by
  rw [← h]
  unfold oneOperandWord
  ext i hi
  interval_cases i <;> simp [BitVec.getLsbD_of_ge]

theorem oneOperandWord_index {group : Word} (h : group &&& 0xFF80 = group) (slot : BitVec 3) (low : Nibble) :
    (oneOperandWord group slot low).extractLsb' 0 4 = low := by
  rw [← h]
  unfold oneOperandWord
  ext i hi
  interval_cases i <;> simp

/-- Outside the two-operand blocks the group decides. -/
theorem decodeOperands_of_not_declaredBlock {w : Word} (h : w &&& 0xFFF0 ∉ declaredBlocks) (tail : List Byte) :
    decodeOperands w tail =
      if w &&& 0xFF80 = 0x9580 then takeWord "JMP_imm16" (.jmp (w.extractLsb' 4 3) (w.extractLsb' 0 4)) tail else
      if w &&& 0xFF80 = 0x9980 then takeWord "JZ_imm16" (.jz (w.extractLsb' 4 3) (w.extractLsb' 0 4)) tail else
      if w &&& 0xFF80 = 0x9D80 then takeWord "JNZ_imm16" (.jnz (w.extractLsb' 4 3) (w.extractLsb' 0 4)) tail else
      .ok (.illegal w, tail) := by
  simp only [declaredBlocks, List.mem_cons, List.not_mem_nil, or_false, not_or] at h
  simp only [decodeOperands, h, if_false]

/-- A one-operand word is read in its group with its slot and index. -/
theorem decodeOperands_oneOperandWord {group : Word} (hg : group &&& 0xFF80 = group) (h15 : group.getLsbD 15 = true)
    (slot : BitVec 3) (low : Nibble) (tail : List Byte) :
    decodeOperands (oneOperandWord group slot low) tail =
      if group = 0x9580 then takeWord "JMP_imm16" (.jmp slot low) tail else
      if group = 0x9980 then takeWord "JZ_imm16" (.jz slot low) tail else
      if group = 0x9D80 then takeWord "JNZ_imm16" (.jnz slot low) tail else
      .ok (.illegal (oneOperandWord group slot low), tail) := by
  have bit15 : (oneOperandWord group slot low &&& 0xFFF0).getLsbD 15 = true := by
    simp [oneOperandWord, h15]
  rw [decodeOperands_of_not_declaredBlock (Machine.not_declaredBlock_of_bit15 bit15),
    Machine.oneOperandWord_group_and hg, oneOperandWord_slot hg, oneOperandWord_index hg]

theorem decodeOperands_undeclared {w : Word} (h : isDeclared w = false) (tail : List Byte) :
    decodeOperands w tail = .ok (.illegal w, tail) := by
  simp only [isDeclared, Bool.or_eq_false_iff, List.contains_eq_mem, decide_eq_false_iff_not] at h
  obtain ⟨hblock, hgroup⟩ := h
  simp only [declaredOneOperand, List.mem_cons, List.not_mem_nil, or_false, not_or] at hgroup
  simp only [decodeOperands_of_not_declaredBlock hblock, hgroup, if_false]

/-- The decoder reads an instruction's own word and operand bytes as the instruction. -/
theorem decodeOperands_instrWord {i : Instr} (hi : i.WellFormed) (hc : i.controlWord? = none) (rest : List Byte) :
    decodeOperands i.instrWord (i.operandBytes ++ rest) = .ok (i, rest) := by
  cases i
  case nop | hlt | movRegImm8 | movRegReg | movRegMemw | movRegMemb | addRegReg | subRegReg | shlRegImm8 =>
    rw [Instr.instrWord, decodeOperands, withIndex_block (by decide), Machine.withIndex_index (by decide)]
    rfl
  case movRegImm16 | addRegImm16 | subRegImm16 | movMemImm =>
    rw [Instr.instrWord, decodeOperands, withIndex_block (by decide), Machine.withIndex_index (by decide)]
    simp [Instr.operandBytes, takeWord_bytes, takeTwoWords_bytes]
  case jmp | jz | jnz =>
    rw [Instr.instrWord, decodeOperands_oneOperandWord (by decide) (by decide)]
    simp [Instr.operandBytes, takeWord_bytes]
  case illegal word => exact decodeOperands_undeclared (wellFormed_illegal_iff.mp hi) rest
  all_goals cases hc

/-- Settles O12: the encoder's bytes give back the instruction word, whose block or group selects the row. -/
theorem decodeReadsBackInstructionWords : Obligations.DecodeReadsBackInstructionWords := by
  intro i rest hi hf
  have hc := controlWord?_eq_none_of_field? hf
  rw [encode_of_instrWord hc, List.cons_append, List.cons_append, decodeInstr, wordOfBytes_high_low,
    decodeOperands_instrWord hi hc]

/-- Settles O16: an undeclared word meets no row's test, and an ILLEGAL that is read is well-formed, so its word is undeclared. -/
theorem undeclaredWordsAreIllegal : Obligations.UndeclaredWordsAreIllegal := by
  intro h l rest
  refine ⟨fun undeclared => decodeOperands_undeclared undeclared rest, fun declared w tail hread => ?_⟩
  obtain ⟨wellFormed, -, bytes⟩ := decodeInstr_readsAs hread
  have hw : w = wordOfBytes h l := by
    obtain ⟨rfl, tailBytes⟩ := List.cons_eq_cons.mp bytes
    obtain ⟨rfl, -⟩ := List.cons_eq_cons.mp tailBytes
    exact (wordOfBytes_high_low w).symm
  have undeclared := wellFormed_illegal_iff.mp wellFormed
  rw [hw, declared] at undeclared
  cases undeclared

end Sys2Proof

namespace Sys2Proof.Machine

open Claims (Declared bytes2 isSeg)

/-! ### The words of the example ROM (R150, R170) -/

/-- What the statement asks of the word at a step: FETCH at step 0, and no code or step target that faults. -/
def soundWordAt (k : Nat) (w : ControlBits) : Bool :=
  (k != 0 || w == cwFetch) && !reservedCode (decodeControl w) && !(decodeControl w).targetOutOfRange

/-- The fifteen procedures, with the zero words after them, evaluate. -/
theorem exampleProcedures_sound :
    ∀ k < 16, (exampleProcedures.all fun p => soundWordAt k (p[k]?.getD 0)) = true := by decide

/-- Settles O55: what holds at a step of every procedure holds in every block. -/
theorem exampleRomIsWellFormed : Obligations.ExampleRomIsWellFormed := by
  intro a
  have step : (a &&& 0xF).toNat = a.toNat % 16 := Nat.and_two_pow_sub_one_eq_mod a.toNat 4
  have sound := exampleRom_of_procedures (a.toNat % 16)
    (exampleProcedures_sound _ (Nat.mod_lt _ (by decide))) a step
  simp only [soundWordAt, Bool.and_eq_true, Bool.or_eq_true, bne_iff_ne, beq_iff_eq, Bool.not_eq_true'] at sound
  obtain ⟨⟨fetch, reserved⟩, target⟩ := sound
  exact ⟨fun h => fetch.resolve_left (· h), reserved, target⟩

/-- Settles O56: a state where an instruction begins meets what its ticks need. -/
theorem macroInstructionIsItsTicks : Obligations.MacroInstructionIsItsTicks := fun _ _ h =>
  (macroBegins_of_macroAt h).exec_eq_ticks

/-! ### Instruction words and operand bytes in numbers (R66, R67, R71) -/

theorem bytes2_toNat (w : Word) : bytes2 w.toNat = [highByte w, lowByte w] := by
  have high : BitVec.ofNat 8 (w.toNat / 256) = highByte w := by
    rw [← highByte_toNat, BitVec.ofNat_toNat, BitVec.setWidth_eq]
  have low : BitVec.ofNat 8 w.toNat = lowByte w := by
    apply BitVec.eq_of_toNat_eq
    rw [lowByte_toNat, BitVec.toNat_ofNat]
  rw [bytes2, high, low]

theorem encode_eq_bytes2 {i : Instr} (hc : i.controlWord? = none) {word : Nat} (hw : i.instrWord.toNat = word) :
    encode i = bytes2 word ++ i.operandBytes := by
  rw [encode_of_instrWord hc, ← hw, bytes2_toNat]
  rfl

/-- Fields that share no bit add up. -/
theorem toNat_or_of_and_eq_zero {x y : Word} (h : x &&& y = 0#16) : (x ||| y).toNat = x.toNat + y.toNat := by
  rw [← BitVec.add_eq_or_of_and_eq_zero x y h, BitVec.toNat_add_of_and_eq_zero h]

theorem withIndex_toNat {block : Word} (h : block &&& 0x7FF0 = block) (r : Nibble) :
    (withIndex block r).toNat = block.toNat + r.toNat := by
  have apart : block &&& r.setWidth 16 = 0#16 := by
    rw [← h]
    ext i hi
    interval_cases i <;> simp
  rw [withIndex, toNat_or_of_and_eq_zero apart, BitVec.toNat_setWidth_of_le (by decide)]

theorem oneOperandWord_toNat {group : Word} (h : group &&& 0xFF80 = group) (slot : BitVec 3) (low : Nibble) :
    (oneOperandWord group slot low).toNat = group.toNat + slot.toNat * 16 + low.toNat := by
  have slotApart : group &&& slot.setWidth 16 <<< 4 = 0#16 := by
    rw [← h]
    ext i hi
    interval_cases i <;> simp [BitVec.getLsbD_of_ge]
  have lowApart : (group ||| slot.setWidth 16 <<< 4) &&& low.setWidth 16 = 0#16 := by
    rw [← h]
    ext i hi
    interval_cases i <;> simp
  have slotPlace : (slot.setWidth 16 <<< 4).toNat = slot.toNat * 16 := by
    have := slot.isLt
    rw [BitVec.toNat_shiftLeft, BitVec.toNat_setWidth_of_le (by decide), Nat.shiftLeft_eq]
    omega
  rw [oneOperandWord, toNat_or_of_and_eq_zero lowApart, toNat_or_of_and_eq_zero slotApart, slotPlace,
    BitVec.toNat_setWidth_of_le (by decide)]

theorem lowNibble_toNat (b : Byte) : (lowNibble b).toNat = b.toNat % 16 := by
  simp [lowNibble]

theorem lowNibble_eq_ofNat (b : Byte) : lowNibble b = BitVec.ofNat 4 (b.toNat % 16) := by
  rw [← lowNibble_toNat, BitVec.ofNat_toNat, BitVec.setWidth_eq]

theorem highNibble_eq_ofNat (b : Byte) : highNibble b = BitVec.ofNat 4 (b.toNat / 16) := by
  have high : (highNibble b).toNat = b.toNat / 16 := by
    simp only [highNibble, extractLsb'_toNat_eq_div_mod]
    omega
  rw [← high, BitVec.ofNat_toNat, BitVec.setWidth_eq]

/-- The encoding of a two-operand word and the procedure of its block. -/
theorem declared_withIndex {i : Instr} {block : Word} {r : Nibble} {word : Nat} {operands : List Byte}
    {procedure : List ControlBits} (hc : i.controlWord? = none) (hi : i.instrWord = withIndex block r)
    (h : block &&& 0x7FF0 = block) (hw : block.toNat + r.toNat = word) (ho : i.operandBytes = operands)
    (hp : exampleBlock block = procedure) : Declared i word operands block procedure := by
  refine ⟨?_, hp⟩
  rw [encode_eq_bytes2 hc (hi ▸ (withIndex_toNat h r).trans hw), ho]

/-! ### The latched word in numbers (R140) -/

theorem mergeFlags_withIndex (s : State) {block : Word} (h : block &&& 0x7FF0 = block) (r : Nibble) :
    mergeFlags s (withIndex block r) = BitVec.ofNat 16 (block.toNat + r.toNat) := by
  rw [mergeFlags_of_twoOperand s (withIndex_bit15 h r), ← withIndex_toNat h, BitVec.ofNat_toNat, BitVec.setWidth_eq]

/-- The flags of the state take the place of a one-operand word's slot. -/
theorem mergeFlags_oneOperandWord (s : State) {group : Word} (hg : group &&& 0xFF80 = group)
    (h15 : group.getLsbD 15 = true) (slot : BitVec 3) (low : Nibble) :
    mergeFlags s (oneOperandWord group slot low) =
      BitVec.ofNat 16 (group.toNat + (s.sf.toNat * 64 + s.cf.toNat * 32 + s.zf.toNat * 16 + low.toNat)) := by
  have aligned : group.toNat % 128 = 0 := by
    have clear : group.extractLsb' 0 7 = 0#7 := by
      rw [← hg]
      ext i hi
      interval_cases i <;> simp
    simpa using congrArg BitVec.toNat clear
  have := (getLsbD_15_eq_true_iff group).mp h15
  have := slot.isLt
  have := low.isLt
  rw [mergeFlags_eq_latched, Claims.latched, oneOperandWord_toNat hg, if_pos (by omega)]
  congr 1
  omega

/-! ### What the parts of an instruction do, in one update (R151, R152) -/

theorem next_of_whenFetching {s t t' : State} (h : s.run = .fetching) (ht : t = t') : whenFetching s t = .next t' := by
  rw [whenFetching_run h, ht]

theorem afterFetch_withIndex (s : State) {block : Word} (h : block &&& 0x7FF0 = block) (r : Nibble) :
    afterFetch (withIndex block r) s =
      { s with iw := BitVec.ofNat 16 (block.toNat + r.toNat), ip := s.ip + 2, stepCtr := 1 } := by
  rw [afterFetch, mergeFlags_withIndex s h]

theorem afterOperandByte_afterFetch (s : State) {block : Word} (h : block &&& 0x7FF0 = block) (r : Nibble) (b : Byte) :
    afterOperandByte b (afterFetch (withIndex block r) s) =
      { s with
        iw := BitVec.ofNat 16 (block.toNat + r.toNat), ow := BitVec.ofNat 16 b.toNat, ip := s.ip + 3, stepCtr := 2 } := by
  have hip : s.ip + 2 + 1 = s.ip + 3 := BitVec.add_assoc s.ip 2 1
  rw [afterOperandByte, afterFetch_ip, hip, afterFetch_withIndex s h, BitVec.ofNat_toNat]

theorem afterOperandWord_afterFetch (s : State) {block : Word} (h : block &&& 0x7FF0 = block) (r : Nibble) (v : Word) :
    afterOperandWord v (afterFetch (withIndex block r) s) =
      { s with iw := BitVec.ofNat 16 (block.toNat + r.toNat), t1 := v, ip := s.ip + 4, stepCtr := 2 } := by
  have hip : s.ip + 2 + 2 = s.ip + 4 := BitVec.add_assoc s.ip 2 2
  rw [afterOperandWord, afterFetch_ip, hip, afterFetch_withIndex s h]

/-- The latches, IP and the step are no registers. -/
theorem getReg_withLatches (s : State) (iw ow t0 t1 ip : Word) (k : Nibble) (r : Reg) :
    ({ s with iw := iw, ow := ow, t0 := t0, t1 := t1, ip := ip, stepCtr := k } : State).getReg r = s.getReg r := by
  cases r <;> rfl

theorem returned_setReg (s : State) (r : Reg) (v : Word) : returned (s.setReg r v) = (returned s).setReg r v := by
  cases r <;> rfl

theorem withFlags_setReg (out : AluOut) (s : State) (r : Reg) (v : Word) :
    withFlags out (s.setReg r v) = (withFlags out s).setReg r v := by
  cases r <;> rfl

theorem setReg_withIp (s : State) (r : Reg) (v ip : Word) :
    { s.setReg r v with ip := ip } = ({ s with ip := ip } : State).setReg r v := by
  cases r <;> rfl

/-! ### NOP, HLT, ILLEGAL and the moves (R153 to R160, R169) -/

/-- Settles O46: the words latched are those of the encoding, and an undeclared word is latched in an undeclared block. -/
theorem nopHltIllegal : Obligations.NopHltIllegal := by
  intro x w s hrun
  refine ⟨?nopDeclared, ?hltDeclared, fun undeclared => ?illegalDeclared, ?nop, ?hlt, ?illegal⟩
  case nopDeclared => exact declared_withIndex (block := 0) rfl rfl (by decide) (Nat.zero_add _) rfl rfl
  case hltDeclared => exact declared_withIndex rfl rfl (by decide) rfl rfl rfl
  case illegalDeclared =>
    exact ⟨encode_eq_bytes2 rfl rfl, exampleBlock_latchedBlock (wellFormed_illegal_iff.mpr undeclared) rfl s⟩
  case nop =>
    refine next_of_whenFetching hrun ?_
    rw [Instr.instrWord, afterFetch_withIndex s (by decide)]
    simp [returned]
  case hlt =>
    refine next_of_whenFetching hrun ?_
    rw [Instr.instrWord, afterFetch_withIndex s (by decide)]
    rfl
  case illegal =>
    refine next_of_whenFetching hrun ?_
    rw [afterFetch, mergeFlags_eq_latched]

theorem widthWrite_byte_eq_ofNat (old : Word) (b : Byte) :
    widthWrite .byte old (b.setWidth 16) = BitVec.ofNat 16 (old.toNat / 256 * 256 + b.toNat) := by
  have := old.isLt
  have := b.isLt
  apply BitVec.eq_of_toNat_eq
  rw [widthWrite_toNat, BitVec.toNat_setWidth_of_le (by decide), BitVec.toNat_ofNat]
  dsimp only
  omega

theorem indexFault_eq_none {i : Nibble} {r : Reg} {wid : WidCode} (h : Reg.ofIndex i = some r)
    (hwid : wid ≠ .word → i.toNat < 4) : indexFault i wid = none := by
  have := ofIndex_some h
  obtain ⟨h8, -⟩ | ⟨h4, -, hw, -⟩ | ⟨-, hnone⟩ := indexFault_cases i wid
  · omega
  · have := hwid hw
    omega
  · exact hnone

theorem indexFault_of_ge_four {i : Nibble} {wid : WidCode} (h : 4 ≤ i.toNat) (hw : wid ≠ .word) :
    indexFault i wid = some (if i.toNat < 8 then .byteOfWordReg else .badRegIndex) := by
  split
  · next h8 => exact indexFault_of_wordReg h h8 hw
  · next h8 => exact indexFault_of_ge_eight (not_lt.mp h8) wid

/-- Settles O47: the index is checked at the width of the immediate, and a byte replaces the low half of the register. -/
theorem moveImmediate : Obligations.MoveImmediate := by
  intro r imm imm8 s hrun
  refine ⟨?declared16, ?declared8, fun d hd => ?word, fun h8 => ?wordFault, fun d hd h4 => ?byte, fun h4 => ?byteFault⟩
  case declared16 => exact declared_withIndex rfl rfl (by decide) rfl (bytes2_toNat imm).symm rfl
  case declared8 => exact declared_withIndex rfl rfl (by decide) rfl rfl rfl
  case word =>
    have hip : s.ip + 2 + 2 = s.ip + 4 := BitVec.add_assoc s.ip 2 2
    refine next_of_whenFetching hrun ?_
    rw [hd, afterFetch_ip, hip, Instr.instrWord, afterFetch_withIndex s (by decide)]
    dsimp only
    rw [setReg_withIp, returned_setReg]
    rfl
  case wordFault =>
    refine next_of_whenFetching hrun ?_
    rw [ofIndex_none h8, Instr.instrWord, afterFetch_withIndex s (by decide)]
    rfl
  case byte =>
    have hip : s.ip + 2 + 1 = s.ip + 3 := BitVec.add_assoc s.ip 2 1
    refine next_of_whenFetching hrun ?_
    rw [indexFault_eq_none hd fun _ => h4]
    dsimp only
    rw [regWrite_eq hd, afterFetch_ip, hip, Instr.instrWord, afterFetch_withIndex s (by decide), getReg_withLatches,
      widthWrite_byte_eq_ofNat, setReg_withIp, returned_setReg]
    rfl
  case byteFault =>
    refine next_of_whenFetching hrun ?_
    rw [indexFault_of_ge_four h4 (by decide), Instr.instrWord, afterFetch_withIndex s (by decide)]
    rfl

/-- Settles O48: both indices are checked before the source is read. -/
theorem moveRegister : Obligations.MoveRegister := by
  intro r operand s hrun iw ow
  rw [← lowNibble_eq_ofNat, ← lowNibble_toNat]
  refine ⟨declared_withIndex rfl rfl (by decide) rfl rfl rfl, fun d src hd hsrc => ?move, fun h8 => ?fault⟩
  case move =>
    refine next_of_whenFetching hrun ?_
    rw [Instr.instrWord, afterOperandByte_afterFetch s (by decide), hd, hsrc]
    dsimp only
    rw [getReg_withLatches, returned_setReg]
    rfl
  case fault =>
    refine next_of_whenFetching hrun ?_
    rw [Instr.instrWord, afterOperandByte_afterFetch s (by decide)]
    obtain h8 | h8 := h8
    · rw [ofIndex_none h8]
      rfl
    · rw [ofIndex_none h8]
      cases Reg.ofIndex r <;> rfl

/-- Settles O49: the segment register is the one that the index names, and the store is one word write. -/
theorem moveToMemory : Obligations.MoveToMemory := by
  intro seg addr value s hrun s'
  have meaning : exec (.movMemImm seg addr value) s = .next
      (if isSeg seg.toNat then
        { s' with stepCtr := 0, mem := s.mem.write .word (regRead { s' with stepCtr := 3 } seg .word) addr value }
      else { s' with stepCtr := 3, run := .faulted .badSegmentIndex }) := by
    have hip : s.ip + 2 + 4 = s.ip + 6 := BitVec.add_assoc s.ip 2 4
    refine next_of_whenFetching hrun ?_
    rw [isSegmentIndex_eq_isSeg, afterFetch_ip, hip, Instr.instrWord, afterFetch_withIndex s (by decide)]
    rfl
  rw [meaning]
  refine ⟨declared_withIndex rfl rfl (by decide) rfl ?operands rfl, fun r hr hseg => ?store, fun hseg => ?fault⟩
  case operands =>
    rw [bytes2_toNat, bytes2_toNat]
    rfl
  case store =>
    have segment : regRead { s' with stepCtr := 3 } seg .word = s.getReg r :=
      (regRead_eq hr .word).trans (getReg_withLatches ..)
    rw [if_pos hseg, segment]
  case fault => rw [if_neg (Bool.eq_false_iff.mp hseg)]

/-- A loaded word, and a loaded byte extended to a word, replace the whole register. -/
theorem widthWrite_read {wid : WidCode} (hwid : wid = .word ∨ wid = .bytez) (old : Word) (m : Memory) (seg off : Word) :
    widthWrite wid old (m.read wid seg off).1 = (m.read wid seg off).1 := by
  obtain rfl | rfl := hwid
  · rfl
  · have := (m.readByte seg off).1.isLt
    apply BitVec.eq_of_toNat_eq
    rw [widthWrite_toNat, read_of_ne_word (by decide), BitVec.toNat_setWidth_of_le (by decide)]
    exact Nat.mod_eq_of_lt this

section
variable {wid : WidCode} {r : Nibble} {operand : Byte} {s2 : State}

theorem loadThroughSegment_baseFault (h : 8 ≤ (lowNibble operand).toNat) :
    loadThroughSegment wid r operand s2 = raise .badRegIndex s2 := by
  rw [loadThroughSegment, ofIndex_none h]

variable {base : Reg} (hbase : Reg.ofIndex (lowNibble operand) = some base)
include hbase

theorem loadThroughSegment_indexFault {f : FaultReason} (h : indexFault r wid = some f) :
    loadThroughSegment wid r operand s2 = raise f { s2 with t0 := s2.getReg base, stepCtr := 3 } := by
  rw [loadThroughSegment, hbase]
  dsimp only
  rw [h]

theorem loadThroughSegment_segmentFault (h : indexFault r wid = none)
    (hseg : isSegmentIndex (highNibble operand) = false) :
    loadThroughSegment wid r operand s2 =
      raise .badSegmentIndex { s2 with t0 := s2.getReg base, stepCtr := 3 } := by
  rw [loadThroughSegment, hbase]
  dsimp only
  rw [h, hseg]
  rfl

/-- A load of a word, or of a byte that is extended to the whole register. -/
theorem loadThroughSegment_read {d seg : Reg} (hd : Reg.ofIndex r = some d) (h : indexFault r wid = none)
    (hwid : wid = .word ∨ wid = .bytez) (hseg : isSegmentIndex (highNibble operand) = true)
    (hsg : Reg.ofIndex (highNibble operand) = some seg) :
    loadThroughSegment wid r operand s2 =
      ({ s2 with
        t0 := s2.getReg base, stepCtr := 0
        mem := (s2.mem.read wid (s2.getReg seg) (s2.getReg base)).2 } : State).setReg d
        (s2.mem.read wid (s2.getReg seg) (s2.getReg base)).1 := by
  have segment : regRead { s2 with t0 := s2.getReg base, stepCtr := 3 } (highNibble operand) .word = s2.getReg seg :=
    (regRead_eq hsg .word).trans (getReg_withLatches ..)
  rw [loadThroughSegment, hbase]
  dsimp only
  rw [h]
  dsimp only
  rw [if_pos hseg, segment, regWrite_eq hd, widthWrite_read hwid, returned_setReg]
  rfl

end

/-- Settles O50: both loads are one load at their width, whose checks come in the order of the ticks. -/
theorem moveFromMemory : Obligations.MoveFromMemory := by
  intro wid r operand s hrun hwid i base seg s2
  have meaning : exec i s = .next (loadThroughSegment wid r operand { s2 with stepCtr := 2 }) := by
    obtain rfl | rfl := hwid
    · refine next_of_whenFetching hrun ?_
      rw [Instr.instrWord, afterOperandByte_afterFetch s (by decide)]
      rfl
    · refine next_of_whenFetching hrun ?_
      rw [Instr.instrWord, afterOperandByte_afterFetch s (by decide)]
      rfl
  have read (q : Reg) : State.getReg { s2 with stepCtr := 2 } q = s.getReg q := getReg_withLatches ..
  have hindex {d : Reg} (hd : Reg.ofIndex r = some d) (hbyte : wid = .bytez → r.toNat < 4) : indexFault r wid = none :=
    indexFault_eq_none hd fun hw => hbyte (hwid.resolve_left hw)
  have hbase : base = lowNibble operand := (lowNibble_eq_ofNat operand).symm
  have hseg : seg = highNibble operand := (highNibble_eq_ofNat operand).symm
  rw [meaning, hbase, hseg, ← isSegmentIndex_eq_isSeg]
  refine ⟨?declared, fun h8 => ?baseFault, fun b hb => ⟨fun h8 => ?badIndex, fun h4 h8 hz => ?byteOfWordReg,
    fun d hd hbyte => ⟨fun hbad => ?segmentFault, fun sg hsg hgood => ?load⟩⟩⟩
  case declared =>
    obtain rfl | rfl := hwid <;> exact declared_withIndex rfl rfl (by decide) rfl rfl rfl
  case baseFault =>
    rw [loadThroughSegment_baseFault h8]
    rfl
  case badIndex =>
    rw [loadThroughSegment_indexFault hb (indexFault_of_ge_eight h8 wid), read]
    rfl
  case byteOfWordReg =>
    rw [loadThroughSegment_indexFault hb (indexFault_of_wordReg h4 h8 (by rw [hz]; decide)), read]
    rfl
  case segmentFault =>
    rw [loadThroughSegment_segmentFault hb (hindex hd hbyte) hbad, read]
    rfl
  case load =>
    rw [loadThroughSegment_read hb hd (hindex hd hbyte) hwid hgood hsg, read, read]

/-! ### The ALU on a register (R161 to R165) -/

theorem alu_add_word (A B : Word) :
    alu .add A B 16 = aluOut 16 ((A.toNat + B.toNat) % 65536) (decide (65536 ≤ A.toNat + B.toNat)) := by
  simp only [alu, aluAdd, Nat.mod_eq_of_lt A.isLt, Nat.mod_eq_of_lt B.isLt]
  rfl

theorem alu_sub_word (A B : Word) :
    alu .sub A B 16 = aluOut 16 ((A.toNat + 65536 - B.toNat) % 65536) (decide (A.toNat < B.toNat)) := by
  simp only [alu, aluSub, Nat.mod_eq_of_lt A.isLt, Nat.mod_eq_of_lt B.isLt]
  rfl

/-- The count is the low 4 bits of the byte, below the width. -/
theorem alu_shl_byte (A : Word) (imm : Byte) :
    alu .shl A (imm.setWidth 16) 16 = aluOut 16 (A.toNat * 2 ^ (imm.toNat % 16) % 65536)
      (decide (imm.toNat % 16 ≠ 0 ∧ A.toNat / 2 ^ (16 - imm.toNat % 16) % 2 = 1)) := by
  have below : imm.toNat % 16 ≤ 16 := (Nat.mod_lt _ (by decide)).le
  rw [alu, Nat.mod_eq_of_lt A.isLt, BitVec.toNat_setWidth_of_le (by decide), aluShl_eq A.isLt, if_pos below]
  simp only [below, true_and, Nat.reducePow]

theorem aluOnReg_fault {op : AluCode} {r : Nibble} {v : Word} {s : State} (h : 8 ≤ r.toNat) :
    aluOnReg op r v s = raise .badRegIndex s := by
  rw [aluOnReg, ofIndex_none h]

/-- The register takes the result modulo 2^16, and the flags are read off it. -/
theorem aluOnReg_eq {op : AluCode} {r : Nibble} {d : Reg} {v : Word} {s : State} {result : Nat} {carry : Bool}
    (hd : Reg.ofIndex r = some d) (h : alu op (s.getReg d) v 16 = aluOut 16 (result % 65536) carry) :
    aluOnReg op r v s = (Claims.flags (returned s) (result % 65536) carry).setReg d (BitVec.ofNat 16 result) := by
  have wraps : BitVec.ofNat 16 (result % 65536) = BitVec.ofNat 16 result := by
    apply BitVec.eq_of_toNat_eq
    simp
  have below : result % 65536 < 2 ^ 16 := Nat.mod_lt _ (by decide)
  rw [aluOnReg, hd]
  dsimp only
  rw [h, aluOut_of_lt (by decide) below, wraps, withFlags_setReg, returned_setReg]
  rfl

theorem aluOnRegs_eq {op : AluCode} {r : Nibble} {operand : Byte} {src : Reg} (h : Reg.ofIndex (lowNibble operand) = some src)
    (s : State) : aluOnRegs op r operand s = aluOnReg op r (s.getReg src) s := by
  rw [aluOnRegs, h]

theorem aluOnRegs_fault {op : AluCode} {r : Nibble} {operand : Byte} {s : State}
    (h : 8 ≤ r.toNat ∨ 8 ≤ operand.toNat % 16) : aluOnRegs op r operand s = raise .badRegIndex s := by
  rw [← lowNibble_toNat] at h
  cases hsrc : Reg.ofIndex (lowNibble operand) with
  | none => rw [aluOnRegs, hsrc]
  | some src =>
    have := ofIndex_some hsrc
    rw [aluOnRegs_eq hsrc, aluOnReg_fault (by omega)]

/-- Settles O51: the operation on the two registers, in exact arithmetic. -/
theorem addSubRegister : Obligations.AddSubRegister := by
  intro r operand s hrun s2 add sub
  have addMeaning : exec (.addRegReg r operand) s = .next (aluOnRegs .add r operand { add with stepCtr := 2 }) := by
    refine next_of_whenFetching hrun ?_
    rw [Instr.instrWord, afterOperandByte_afterFetch s (by decide)]
    rfl
  have subMeaning : exec (.subRegReg r operand) s = .next (aluOnRegs .sub r operand { sub with stepCtr := 2 }) := by
    refine next_of_whenFetching hrun ?_
    rw [Instr.instrWord, afterOperandByte_afterFetch s (by decide)]
    rfl
  rw [addMeaning, subMeaning, ← lowNibble_eq_ofNat]
  refine ⟨declared_withIndex rfl rfl (by decide) rfl rfl rfl, declared_withIndex rfl rfl (by decide) rfl rfl rfl,
    fun d src hd hsrc => ?result, fun h8 => ?fault⟩
  case result =>
    have addRead (q : Reg) : State.getReg { add with stepCtr := 2 } q = s.getReg q := getReg_withLatches ..
    have subRead (q : Reg) : State.getReg { sub with stepCtr := 2 } q = s.getReg q := getReg_withLatches ..
    rw [aluOnRegs_eq hsrc, aluOnRegs_eq hsrc, addRead, subRead, aluOnReg_eq hd (by rw [addRead]; exact alu_add_word ..),
      aluOnReg_eq hd (by rw [subRead]; exact alu_sub_word ..)]
    exact ⟨rfl, rfl⟩
  case fault =>
    rw [aluOnRegs_fault h8, aluOnRegs_fault h8]
    exact ⟨rfl, rfl⟩

/-- Settles O52: the operation on the register and the immediate in T1, in exact arithmetic. -/
theorem addSubImmediate : Obligations.AddSubImmediate := by
  intro r imm s hrun s2 add sub
  have addMeaning : exec (.addRegImm16 r imm) s = .next (aluOnReg .add r imm { add with stepCtr := 2 }) := by
    refine next_of_whenFetching hrun ?_
    rw [Instr.instrWord, afterOperandWord_afterFetch s (by decide)]
    rfl
  have subMeaning : exec (.subRegImm16 r imm) s = .next (aluOnReg .sub r imm { sub with stepCtr := 2 }) := by
    refine next_of_whenFetching hrun ?_
    rw [Instr.instrWord, afterOperandWord_afterFetch s (by decide)]
    rfl
  rw [addMeaning, subMeaning]
  refine ⟨declared_withIndex rfl rfl (by decide) rfl (bytes2_toNat imm).symm rfl,
    declared_withIndex rfl rfl (by decide) rfl (bytes2_toNat imm).symm rfl, fun d hd => ?result, fun h8 => ?fault⟩
  case result =>
    have addRead : State.getReg { add with stepCtr := 2 } d = s.getReg d := getReg_withLatches ..
    have subRead : State.getReg { sub with stepCtr := 2 } d = s.getReg d := getReg_withLatches ..
    rw [aluOnReg_eq hd (by rw [addRead]; exact alu_add_word ..), aluOnReg_eq hd (by rw [subRead]; exact alu_sub_word ..)]
    exact ⟨rfl, rfl⟩
  case fault =>
    rw [aluOnReg_fault h8, aluOnReg_fault h8]
    exact ⟨rfl, rfl⟩

/-- Settles O53: the shift of the register by the low 4 bits of the byte in T1, in exact arithmetic. -/
theorem shiftLeftImmediate : Obligations.ShiftLeftImmediate := by
  intro r imm s hrun s2
  have meaning : exec (.shlRegImm8 r imm) s = .next (aluOnReg .shl r (imm.setWidth 16) { s2 with stepCtr := 2 }) := by
    have hip : s.ip + 2 + 1 = s.ip + 3 := BitVec.add_assoc s.ip 2 1
    refine next_of_whenFetching hrun ?_
    rw [afterFetch_ip, hip, Instr.instrWord, afterFetch_withIndex s (by decide), ← BitVec.ofNat_toNat]
    rfl
  rw [meaning]
  refine ⟨declared_withIndex rfl rfl (by decide) rfl rfl rfl, fun d hd => ?result, fun h8 => ?fault⟩
  case result =>
    have read : State.getReg { s2 with stepCtr := 2 } d = s.getReg d := getReg_withLatches ..
    rw [aluOnReg_eq hd (by rw [read]; exact alu_shl_byte ..)]
    rfl
  case fault =>
    rw [aluOnReg_fault h8]
    rfl

/-! ### The jumps (R166 to R168) -/

theorem afterFetch_oneOperandWord (s : State) {group : Word} (hg : group &&& 0xFF80 = group)
    (h15 : group.getLsbD 15 = true) (slot : BitVec 3) (low : Nibble) :
    afterFetch (oneOperandWord group slot low) s =
      { s with
        iw := BitVec.ofNat 16 (group.toNat + (s.sf.toNat * 64 + s.cf.toNat * 32 + s.zf.toNat * 16 + low.toNat))
        ip := s.ip + 2, stepCtr := 1 } := by
  rw [afterFetch, mergeFlags_oneOperandWord s hg h15]

/-- The encoding of a one-operand word and the procedure of one of its blocks. -/
theorem declared_oneOperandWord {i : Instr} {group block : Word} {slot : BitVec 3} {low : Nibble} {operands : List Byte}
    {procedure : List ControlBits} (hc : i.controlWord? = none) (hi : i.instrWord = oneOperandWord group slot low)
    (hg : group &&& 0xFF80 = group) (ho : i.operandBytes = operands) (hp : exampleBlock block = procedure) :
    Declared i (group.toNat + slot.toNat * 16 + low.toNat) operands block procedure := by
  refine ⟨?_, hp⟩
  rw [encode_eq_bytes2 hc (hi ▸ oneOperandWord_toNat hg slot low), ho]

theorem exampleBlock_jmp : ∀ k < 8, exampleBlock (BitVec.ofNat 16 (0x9580 + k * 16)) = [cwFetch, cwJmpImm, cwRtn] := by
  decide

/-- Z is bit 0 of the flags in a block's address. -/
theorem exampleBlock_jz : ∀ k < 8, exampleBlock (BitVec.ofNat 16 (0x9980 + k * 16)) =
    if k % 2 = 1 then [cwFetch, cwJmpImm, cwRtn] else [cwFetch, cwSkip2, cwRtn] := by
  decide

theorem exampleBlock_jnz : ∀ k < 8, exampleBlock (BitVec.ofNat 16 (0x9D80 + k * 16)) =
    if k % 2 = 1 then [cwFetch, cwSkip2, cwRtn] else [cwFetch, cwJmpImm, cwRtn] := by
  decide

/-- Settles O54: the latch puts the flags in the word's slot, and the jump goes by the Z of the same moment. -/
theorem jumps : Obligations.Jumps := by
  intro slot x target s hrun f jump skip
  have operands := (bytes2_toNat target).symm
  have hip : s.ip + 2 + 2 = s.ip + 4 := BitVec.add_assoc s.ip 2 2
  refine ⟨fun k hk => ⟨?jmpDeclared, ?jzDeclared, ?jnzDeclared⟩, ?jmp, ?jz, ?jnz⟩
  case jmpDeclared =>
    exact declared_oneOperandWord (group := 0x9580) rfl rfl (by decide) operands (exampleBlock_jmp k hk)
  case jzDeclared =>
    exact declared_oneOperandWord (group := 0x9980) rfl rfl (by decide) operands (exampleBlock_jz k hk)
  case jnzDeclared =>
    exact declared_oneOperandWord (group := 0x9D80) rfl rfl (by decide) operands (exampleBlock_jnz k hk)
  case jmp =>
    refine next_of_whenFetching hrun ?_
    rw [Instr.instrWord, afterFetch_oneOperandWord s (by decide) (by decide)]
    rfl
  case jz =>
    refine next_of_whenFetching hrun ?_
    rw [afterFetch_ip, hip, Instr.instrWord, afterFetch_oneOperandWord s (by decide) (by decide)]
    rfl
  case jnz =>
    refine next_of_whenFetching hrun ?_
    rw [afterFetch_ip, hip, Instr.instrWord, afterFetch_oneOperandWord s (by decide) (by decide)]
    rfl

end Sys2Proof.Machine

/-! SUPPORT. Faults and the interrupt enable (60_exceptions.md): the checks of a word as one list of conditions in the order of R174, and
the phases of a tick from states that differ in IE alone. That a fault changes the run state only is `exec_of_fault`. -/

namespace Sys2Proof.Machine

open Claims (firstOf isSeg)

/-- Settles O19: a fault is taken before any phase, under every reading of the word. -/
theorem faultChangesOnlyTheRunState : Obligations.FaultChangesOnlyTheRunState :=
  fun _ _ _ _ hi hs hr hv => exec_of_fault hi hs hr hv

/-! ### The checks as a list of conditions (R173, R174) -/

theorem firstOf_cons (c : Bool) (f : FaultReason) (rest : List (Bool × FaultReason)) :
    firstOf ((c, f) :: rest) = if c then some f else firstOf rest := rfl

/-- The conditions of one list are checked before those of the next. -/
theorem firstOf_append (l k : List (Bool × FaultReason)) : firstOf (l ++ k) = (firstOf l).or (firstOf k) := by
  induction l with
  | nil => rfl
  | cons entry rest ih =>
    obtain ⟨c, f⟩ := entry
    rw [List.cons_append, firstOf_cons, firstOf_cons, ih]
    cases c <;> rfl

/-- The conditions on the index of a register operand (R25); `uses` says whether the word uses the operand. -/
def indexConditions (uses : Bool) (i : Nibble) (wid : WidCode) : List (Bool × FaultReason) :=
  [(uses && decide (8 ≤ i.toNat), .badRegIndex), (uses && decide (4 ≤ i.toNat) && wid != .word, .byteOfWordReg)]

/-- The conditions on the segment of a memory operation (R129 to R134). -/
def segmentConditions (cw : ControlWord) (s : State) : List (Bool × FaultReason) :=
  [ (cw.mem != .none && cw.seg == .none, .noSegment),
    (cw.mem != .none && cw.seg == .int, .unmodelled),
    (cw.mem != .none && cw.seg == .segi && !isSeg s.index1.toNat, .badSegmentIndex),
    (cw.mem != .none && cw.seg == .sego && !isSeg s.segIndex2.toNat, .badSegmentIndex) ]

theorem firstOf_indexConditions (uses : Bool) (i : Nibble) (wid : WidCode) :
    firstOf (indexConditions uses i wid) = if uses then indexFault i wid else none := by
  cases uses with
  | false => rfl
  | true => simp [indexConditions, firstOf, indexFault]

/-- At most one of the conditions holds, that of the word's own SEG code. -/
theorem firstOf_segmentConditions (cw : ControlWord) (s : State) :
    firstOf (segmentConditions cw s) = segmentFault cw s := by
  simp only [segmentFault, isSegmentIndex_eq_isSeg, segmentConditions, firstOf_cons]
  by_cases hm : cw.mem = .none
  · simp [hm, firstOf]
  · cases hseg : cw.seg
    case segi => cases isSeg s.index1.toNat <;> simp [hm, firstOf]
    case sego => cases isSeg s.segIndex2.toNat <;> simp [hm, firstOf]
    all_goals simp [hm, firstOf]

/-- The checks of a word are the conditions of the reserved codes and of the step target, then of the two register operands, then
of the segment. -/
theorem validate_eq_firstOf (cw : ControlWord) (s : State) :
    validate cw s = firstOf ((reservedCode cw, .reservedCode) :: (cw.targetOutOfRange, .stepTargetRange) ::
      (indexConditions (usesR1 cw) s.index1 cw.wid ++ indexConditions (usesR2 cw) s.index2 cw.wid ++
        segmentConditions cw s)) := by
  by_cases hc : reservedCode cw = true
  · rw [validate_of_reservedCode hc, firstOf_cons, if_pos hc]
  by_cases ht : cw.targetOutOfRange = true
  · rw [validate_of_targetOutOfRange (eq_false_of_ne_true hc) ht, firstOf_cons, if_neg hc, firstOf_cons, if_pos ht]
  rw [validate_eq_or (eq_false_of_ne_true hc) (eq_false_of_ne_true ht), firstOf_cons, if_neg hc, firstOf_cons, if_neg ht,
    firstOf_append, firstOf_append, firstOf_indexConditions, firstOf_indexConditions, firstOf_segmentConditions]

/-- A valid word ends in Fetching, or in Halted if it is `HLT` (R87). -/
theorem performWord_run_of_fetching (cw : ControlWord) {s : State} (hs : s.run = .fetching) :
    (performWord cw s).run = if cw.ipc = .hlt then .halted else .fetching :=
  (performWord_tickEnd cw hs).run

/-- Settles O20: the conditions are the checks' own, and the tick has an outcome for `RTN`, for a reason and for a valid word. -/
theorem faultPriority : Obligations.FaultPriority := by
  intro j cw s hj hs i o r1 r2 m reason
  have checks : validate cw s = reason := by
    rw [validate_eq_firstOf, indexConditions, indexConditions, segmentConditions, index1_toNat, index2_toNat, segIndex2_toNat]
    rfl
  refine ⟨checks, fun hr => exec_of_rtn hj hr hs, fun hr => ⟨fun f hf => ?fault, fun hnone => ?valid⟩⟩
  case fault => exact exec_of_fault hj hs hr (checks.trans hf)
  case valid =>
    exact ⟨performWord cw s, exec_of_ready hj ⟨hs, hr, checks.trans hnone⟩, performWord_run_of_fetching cw hs⟩

/-! ### The interrupt enable (R27, R179) -/

/-- The state with another IE. -/
def State.withIe (s : State) (b : Bool) : State := { s with ie := b }

theorem regWrite_withIe (u : State) (b : Bool) (i : Nibble) (wid : WidCode) (d : Word) :
    regWrite (u.withIe b) i wid d = (regWrite u i wid d).withIe b := by
  cases h : Reg.ofIndex i with
  | none => simp only [regWrite, h]
  | some r =>
    rw [regWrite_eq h, regWrite_eq h]
    cases r <;> rfl

theorem latchPhase_withIe (lat : LatCode) (s u : State) (b : Bool) (d : Word) :
    latchPhase lat (s.withIe b) d (u.withIe b) = (latchPhase lat s d u).withIe b := by
  cases lat <;> rfl

theorem flagPhase_withIe (op : AluCode) (out : AluOut) (u : State) (b : Bool) :
    flagPhase op out (u.withIe b) = (flagPhase op out u).withIe b := by
  cases op <;> rfl

/-- A destination's write reads no IE; `DST = IE` gives it the same value whatever it held. -/
theorem destPhase_withIe (dst : DstCode) (wid : WidCode) (s u : State) (b : Bool) (d : Word) :
    destPhase dst wid (s.withIe b) d (u.withIe b) =
      (destPhase dst wid s d u).withIe (if dst = .ie then d.getLsbD 0 else b) := by
  cases dst
  case r1 | r2 => exact regWrite_withIe u b _ wid d
  all_goals rfl

/-- Bus A is the only reader of IE (R108). -/
theorem aluPhase_withIe {cw : ControlWord} (h : cw.ba ≠ .ie) (s : State) (b : Bool) :
    aluPhase cw (s.withIe b) = aluPhase cw s := by
  have busA_same : busA cw.ba cw.wid (s.withIe b) = busA cw.ba cw.wid s := by
    cases hba : cw.ba
    case ie => exact absurd hba h
    all_goals rfl
  rw [aluPhase, busA_same]
  rfl

theorem performWord_withIe {cw : ControlWord} (h : cw.ba ≠ .ie) (s : State) (b : Bool) :
    performWord cw (s.withIe b) =
      (performWord cw s).withIe (if cw.dst = .ie then (dataOf cw s).getLsbD 0 else b) := by
  have memory (d : Word) : memoryPhase cw (s.withIe b) d = memoryPhase cw s d := rfl
  have latched (d : Word) (m : Memory) : latchPhase cw.lat (s.withIe b) d { s.withIe b with mem := m } =
      (latchPhase cw.lat s d { s with mem := m }).withIe b := latchPhase_withIe cw.lat s { s with mem := m } b d
  simp only [performWord, aluPhase_withIe h, memory, latched, destPhase_withIe, flagPhase_withIe]
  rfl

/-- In each of its four outcomes a tick of a word that does not put IE on bus A carries IE along or writes it. -/
theorem tickWord_withIe {cw : ControlWord} (h : cw.ba ≠ .ie) (s : State) (b : Bool) :
    ∃ e, tickWord cw (s.withIe b) = (tickWord cw s).withIe e := by
  obtain ⟨hs, ht⟩ | ⟨hs, hr, ht⟩ | ⟨hs, hr, f, hv, ht⟩ | ⟨hs, hr, hv, ht⟩ := tickWord_cases cw s <;> rw [ht]
  · exact ⟨b, tickWord_stopped cw hs⟩
  · exact ⟨b, tickWord_rtn hs hr⟩
  · exact ⟨b, tickWord_fault hs hr hv⟩
  · exact ⟨_, (tickWord_valid (s := s.withIe b) hs hr hv).trans (performWord_withIe h s b)⟩

/-- Settles O45: every reading of the word is its tick. -/
theorem interruptEnableHasNoEffect : Obligations.InterruptEnableHasNoEffect := by
  intro i cw s b hi hba
  obtain ⟨e, same⟩ := tickWord_withIe hba s b
  exact ⟨tickWord cw s, e, exec_of_controlWord hi s, (exec_of_controlWord hi _).trans (congrArg _ same)⟩

end Sys2Proof.Machine

/-! SUPPORT. Runs with a budget, the placing of a row and the accesses of a tick (70_reset_and_hazards.md R192, R195, R205): the end of a
run is that of the state after its ticks, the placed row is read back from where the next step looks for it, and an access of memory
is one or two accesses of bytes. -/

namespace Sys2Proof.Machine

/-! ### How a run ends (R195) -/

/-- The report that belongs to the state after the last tick. -/
def reportOf (t : State) : RunReport where
  ending := t.ownEnd.getD .budgetExhausted
  final := t

theorem reportOf_ended {t : State} {e : RunEnd} (h : t.ownEnd = some e) : reportOf t = { ending := e, final := t } := by
  rw [reportOf, h, Option.getD_some]

/-- A run stops where the engine stops, and the ticks that it does not make would change nothing (R80). -/
theorem runTicks_eq_reportOf (fuel : Nat) (s : State) :
    ∃ t, ticks fuel s = .next t ∧ runTicks fuel s = .next (reportOf t) := by
  induction fuel generalizing s with
  | zero => exact ⟨s, rfl, rfl⟩
  | succ fuel ih =>
    cases h : s.ownEnd with
    | none =>
      rw [ticks_succ, runTicks_succ (ownEnd_eq_none.mp h)]
      exact ih _
    | some e =>
      have hstopped : s.run ≠ .fetching := fun hrun => by simp [ownEnd_eq_none.mpr hrun] at h
      exact ⟨s, ticks_stopped hstopped _, by rw [runTicks_ended h, reportOf_ended h]⟩

theorem reportOf_halted_iff (t : State) : (reportOf t).ending = .halted ↔ t.run = .halted := by
  cases h : t.run <;> simp [reportOf, State.ownEnd, h]

theorem reportOf_faulted_iff (t : State) (reason : FaultReason) :
    (reportOf t).ending = .faulted reason ↔ t.run = .faulted reason := by
  cases h : t.run <;> simp [reportOf, State.ownEnd, h]

theorem reportOf_budgetExhausted_iff (t : State) : (reportOf t).ending = .budgetExhausted ↔ t.run = .fetching := by
  cases h : t.run <;> simp [reportOf, State.ownEnd, h]

theorem reportOf_isFailure (t : State) : (reportOf t).ending.isFailure = !t.notFaulted := by
  cases h : t.run <;> simp [reportOf, State.ownEnd, State.notFaulted, RunEnd.isFailure, h]

/-- Ticks may be counted in two parts. -/
theorem ticks_add (n : Nat) (s : State) : ∃ u, ticks n s = .next u ∧ ∀ m, ticks (n + m) s = ticks m u := by
  induction n generalizing s with
  | zero => exact ⟨s, rfl, fun m => by rw [Nat.zero_add]⟩
  | succ n ih =>
    obtain ⟨u, hu, hadd⟩ := ih (tickWord (decodeControl (currentWord s)) s)
    exact ⟨u, by rw [ticks_succ, hu], fun m => by rw [Nat.add_right_comm, ticks_succ, hadd]⟩

/-- The engine is Fetching after a number of ticks exactly if it was so after every smaller number. -/
theorem fetching_iff_forall_le {fuel : Nat} {s t : State} (h : ticks fuel s = .next t) :
    t.run = .fetching ↔ ∀ n, n ≤ fuel → ∃ u, ticks n s = .next u ∧ u.run = .fetching := by
  refine ⟨fun ht n hn => ?_, fun hall => ?_⟩
  · obtain ⟨u, hu, hadd⟩ := ticks_add n s
    have hrest : ticks (fuel - n) u = .next t := by rw [← hadd, Nat.add_sub_cancel' hn, h]
    exact ⟨u, hu, fetching_of_ticks hrest ht⟩
  · obtain ⟨u, hu, hrun⟩ := hall fuel le_rfl
    rw [h] at hu
    cases hu
    exact hrun

/-- Settles O7: the report is that of the state after the ticks of the budget. -/
theorem runReportsHowItEnds : Obligations.RunReportsHowItEnds := by
  intro fuel s
  obtain ⟨t, hticks, hreport⟩ := runTicks_eq_reportOf fuel s
  exact ⟨reportOf t, hreport, hticks, reportOf_halted_iff t, reportOf_faulted_iff t,
    (reportOf_budgetExhausted_iff t).trans (fetching_iff_forall_le hticks), reportOf_isFailure t⟩

/-! ### A placed control word (R76, R194) -/

theorem romRead_of_rom_eq_romPlace {s : State} {rom : List (Nat × ControlBits)} {a : Word} {w : ControlBits}
    (hrom : romWf rom = true) (h : s.rom = romPlace rom a w) : s.romRead a = w := by
  simp only [romWf, Bool.and_eq_true] at hrom
  obtain ⟨hsparse, -⟩ := hrom
  rw [State.romRead, h, romPlace, sparseSet_get hsparse, if_pos rfl]

theorem currentWord_placeControlWord {s : State} (h : s.wf = true) (w : ControlBits) :
    currentWord (placeControlWord s w) = w := by
  simp only [State.wf, Bool.and_eq_true] at h
  obtain ⟨-, hrom⟩ := h
  have address : dispatchAddress (placeControlWord s w) = dispatchAddress s := rfl
  rw [currentWord, address]
  exact romRead_of_rom_eq_romPlace hrom rfl

theorem step_placeControlWord {s : State} (h : s.wf = true) (w : ControlBits) :
    step (placeControlWord s w) = exec (decode w) (placeControlWord s w) := by
  have tick : step (placeControlWord s w) = engineTick (placeControlWord s w) := rfl
  rw [tick, engineTick, currentWord_placeControlWord h]

/-! ### A placed list of bytes (R34, R70) -/

@[simp] theorem place_phys (m : Memory) (seg off : Word) (bytes : List Byte) : (m.place seg off bytes).phys = m.phys := by
  induction bytes generalizing m off with
  | nil => rfl
  | cons b rest ih => rw [Memory.place, ih, writeByte_phys]

@[simp] theorem place_windows (m : Memory) (seg off : Word) (bytes : List Byte) :
    (m.place seg off bytes).windows = m.windows := by
  induction bytes generalizing m off with
  | nil => rfl
  | cons b rest ih => rw [Memory.place, ih, writeByte_windows]

/-- Every location is RAM-like, and every pair decodes to the location of its own number. -/
structure PlainRam (m : Memory) : Prop where
  phys : m.phys = []
  windows : m.windows = []

theorem PlainRam.locate {m : Memory} (h : PlainRam m) (seg off : Word) : m.locate seg off = pairKey seg off := by
  rw [Memory.locate, h.phys, sparseGet]

theorem PlainRam.not_mem_windows {m : Memory} (h : PlainRam m) (l : Nat) : l ∉ m.windows := by
  rw [h.windows]
  exact List.not_mem_nil

theorem PlainRam.writeByte {m : Memory} (h : PlainRam m) (seg off : Word) (b : Byte) : PlainRam (m.writeByte seg off b) :=
  ⟨by rw [writeByte_phys, h.phys], by rw [writeByte_windows, h.windows]⟩

theorem PlainRam.place {m : Memory} (h : PlainRam m) (seg off : Word) (bytes : List Byte) :
    PlainRam (m.place seg off bytes) :=
  ⟨by rw [place_phys, h.phys], by rw [place_windows, h.windows]⟩

theorem pairKey_inj {seg off off' : Word} : pairKey seg off = pairKey seg off' ↔ off = off' := by
  rw [pairKey, pairKey, Nat.add_left_cancel_iff, BitVec.toNat_inj]

theorem PlainRam.writeByte_byteAt {m : Memory} (h : PlainRam m) (hm : m.wf = true) (seg off off' : Word) (b : Byte) :
    (m.writeByte seg off b).byteAt (pairKey seg off') = if off' = off then b else m.byteAt (pairKey seg off') := by
  rw [writeByte_byteAt_ram hm (h.not_mem_windows _), h.locate]
  simp only [pairKey_inj]

theorem ofNat_succ_offset (off : Word) (k : Nat) : off + 1 + BitVec.ofNat 16 k = off + BitVec.ofNat 16 (k + 1) := by
  rw [Nat.add_comm, BitVec.ofNat_add, BitVec.add_assoc]
  rfl

/-- Placing bytes leaves the other bytes of the segment. -/
theorem place_byteAt_of_ne {m : Memory} (h : PlainRam m) (hm : m.wf = true) {seg off off' : Word} {bytes : List Byte}
    (apart : ∀ k, k < bytes.length → off' ≠ off + BitVec.ofNat 16 k) :
    (m.place seg off bytes).byteAt (pairKey seg off') = m.byteAt (pairKey seg off') := by
  induction bytes generalizing m off with
  | nil => rfl
  | cons b rest ih =>
    have first : off' ≠ off := by simpa using apart 0 (by simp)
    rw [Memory.place, ih (h.writeByte ..) (writeByte_wf hm ..), h.writeByte_byteAt hm, if_neg first]
    intro k hk
    rw [ofNat_succ_offset]
    exact apart (k + 1) (by simpa using hk)

/-- A list of bytes that fits in its segment is read back, byte by byte: no later byte is put over an earlier one. -/
theorem place_byteAt {m : Memory} (h : PlainRam m) (hm : m.wf = true) {seg off : Word} {bytes : List Byte}
    (fits : bytes.length ≤ 65536) {k : Nat} (hk : k < bytes.length) :
    (m.place seg off bytes).byteAt (pairKey seg (off + BitVec.ofNat 16 k)) = bytes[k] := by
  induction bytes generalizing m off k with
  | nil => simp at hk
  | cons b rest ih =>
    rw [List.length_cons] at fits hk
    rw [Memory.place]
    cases k with
    | zero =>
      have apart : ∀ j, j < rest.length → off + BitVec.ofNat 16 0 ≠ off + 1 + BitVec.ofNat 16 j := by
        intro j hj
        rw [ofNat_succ_offset, Ne, BitVec.add_right_inj, ← BitVec.toNat_inj, BitVec.toNat_ofNat, BitVec.toNat_ofNat]
        omega
      rw [place_byteAt_of_ne (h.writeByte ..) (writeByte_wf hm ..) apart, h.writeByte_byteAt hm]
      simp
    | succ k =>
      rw [← ofNat_succ_offset]
      exact ih (h.writeByte ..) (writeByte_wf hm ..) (by omega) (by omega)

/-! ### A placed instruction (R192, log entry 10) -/

/-- The memory with PHYS the identity and no window, in which `placeInstruction` puts the bytes. -/
def Memory.toPlainRam (m : Memory) : Memory := { m with phys := [], windows := [] }

theorem plainRam_toPlainRam (m : Memory) : PlainRam m.toPlainRam := ⟨rfl, rfl⟩

theorem toPlainRam_wf {m : Memory} (h : m.wf = true) : m.toPlainRam.wf = true := by
  simpa [Memory.wf, Memory.toPlainRam, sparseWf, sparseWfFrom, risingFrom] using memory_wf_cells h

theorem placeInstruction_mem (s : State) (bytes : List Byte) :
    (placeInstruction s bytes).mem = s.mem.toPlainRam.place s.cs s.ip bytes := rfl

theorem plainRam_placeInstruction (s : State) (bytes : List Byte) : PlainRam (placeInstruction s bytes).mem :=
  (plainRam_toPlainRam s.mem).place s.cs s.ip bytes

theorem codeLocation_placeInstruction (s : State) (bytes : List Byte) (k : Nat) :
    codeLocation (placeInstruction s bytes) k = pairKey s.cs (s.ip + BitVec.ofNat 16 k) :=
  (plainRam_placeInstruction s bytes).locate _ _

theorem codeBytes_placeInstruction {s : State} (h : s.wf = true) {bytes : List Byte} (fits : bytes.length ≤ 65536) :
    codeBytes (placeInstruction s bytes) bytes.length = bytes := by
  simp only [State.wf, Bool.and_eq_true] at h
  obtain ⟨hmem, -⟩ := h
  apply List.ext_getElem
  · simp [codeBytes]
  · intro k _ hk
    simp only [codeBytes, codeLocation_placeInstruction, placeInstruction_mem, List.getElem_map, List.getElem_range]
    exact place_byteAt (plainRam_toPlainRam s.mem) (toPlainRam_wf hmem) fits hk

/-- A control store without differences is the example ROM. -/
theorem romRead_of_rom_nil {s : State} (h : s.rom = []) (a : Word) : s.romRead a = exampleRom a := by
  rw [State.romRead, h, sparseGet, romDefault, BitVec.ofNat_toNat, BitVec.setWidth_eq]

theorem blockIsExample_of_rom_nil {s : State} (h : s.rom = []) (w : Word) : blockIsExample s w = true := by
  simp [blockIsExample, romRead_of_rom_nil h]

/-- Step 0 of every block of the example ROM is FETCH (R151). -/
theorem currentWord_of_rom_nil {s : State} (h : s.rom = []) (hstep : s.stepCtr = 0) : currentWord s = cwFetch := by
  obtain ⟨fetch, -, -⟩ := exampleRomIsWellFormed (dispatchAddress s)
  rw [currentWord, romRead_of_rom_nil h]
  refine fetch ?_
  have zero : (0 : Nibble).toNat = 0 := rfl
  rw [dispatchAddress_eq, hstep, zero, BitVec.toNat_ofNat]
  omega

theorem step_placeInstruction {s : State} (h : s.wf = true) {bytes rest : List Byte} {i : Instr}
    (six : bytes.length = 6) (hdecode : decodeInstr bytes = .ok (i, rest)) :
    step (placeInstruction s bytes) = exec i (placeInstruction s bytes) := by
  have hcode : codeBytes (placeInstruction s bytes) 6 = bytes := six ▸ codeBytes_placeInstruction h (by omega)
  exact instructionStepRunsDecoded _ i rest rfl rfl rfl (currentWord_of_rom_nil rfl rfl) (hcode.symm ▸ hdecode)
    (fun _ _ => (plainRam_placeInstruction s bytes).not_mem_windows _) (blockIsExample_of_rom_nil rfl _)

/-- A number of the table that is read is that of an instruction word or of a control word, and is read as such. -/
theorem decodeTableWord_eq_some {nbits w : Nat} {i : Instr} (h : decodeTableWord nbits w = some i) :
    (isInstructionRow nbits w = true ∧ ∃ rest, decodeInstr (rowBytes w) = .ok (i, rest)) ∨
    (isInstructionRow nbits w = false ∧ decode (BitVec.ofNat 32 w) = i) := by
  unfold decodeTableWord at h
  split at h
  · next hrow =>
    split at h
    · next i' rest hdecode =>
      cases h
      exact .inl ⟨hrow, rest, hdecode⟩
    · cases h
  · next hrow =>
    split at h
    · exact .inr ⟨eq_false_of_ne_true hrow, Option.some.inj h⟩
    · cases h

/-- Settles O10: both kinds of row are placed where the step at their grain begins. -/
theorem placedRowRunsNext : Obligations.PlacedRowRunsNext := by
  intro s nbits w i hs hrow
  obtain ⟨hinstr, rest, hdecode⟩ | ⟨hcontrol, rfl⟩ := decodeTableWord_eq_some hrow
  · rw [State.withFetchWord, if_pos hinstr]
    exact step_placeInstruction hs rfl hdecode
  · rw [State.withFetchWord, if_neg (by rw [hcontrol]; exact Bool.false_ne_true)]
    exact step_placeControlWord hs _

/-! ### The window accesses of a tick (R41, R205) -/

/-- The record of window accesses has grown by at most `n` entries. -/
def LogGrows (n : Nat) (m m' : Memory) : Prop := ∃ new : List BusAccess, new.length ≤ n ∧ m'.log = new ++ m.log

theorem LogGrows.refl (n : Nat) (m : Memory) : LogGrows n m m := ⟨[], Nat.zero_le n, rfl⟩

theorem LogGrows.trans {j k : Nat} {m m' m'' : Memory} (h : LogGrows j m m') (h' : LogGrows k m' m'') :
    LogGrows (j + k) m m'' := by
  obtain ⟨new, hlen, hlog⟩ := h
  obtain ⟨new', hlen', hlog'⟩ := h'
  refine ⟨new' ++ new, ?_, by rw [hlog', hlog, List.append_assoc]⟩
  rw [List.length_append]
  omega

theorem LogGrows.mono {j k : Nat} {m m' : Memory} (h : LogGrows j m m') (le : j ≤ k) : LogGrows k m m' := by
  obtain ⟨new, hlen, hlog⟩ := h
  exact ⟨new, hlen.trans le, hlog⟩

theorem readByte_logGrows (m : Memory) (seg off : Word) : LogGrows 1 m (m.readByte seg off).2 := by
  by_cases h : Claims.ram m seg off
  · rw [readByte_ram h]
    exact .refl 1 m
  · rw [readByte_window h]
    exact ⟨[_], le_rfl, rfl⟩

theorem writeByte_log_of_ram {m : Memory} {seg off : Word} (h : Claims.ram m seg off) (b : Byte) :
    (m.writeByte seg off b).log = m.log := by
  simp only [Memory.writeByte, show m.locate seg off ∉ m.windows from h, if_false]

theorem writeByte_logGrows (m : Memory) (seg off : Word) (b : Byte) : LogGrows 1 m (m.writeByte seg off b) := by
  by_cases h : Claims.ram m seg off
  · exact ⟨[], Nat.zero_le 1, writeByte_log_of_ram h b⟩
  · rw [writeByte_window h]
    exact ⟨[_], le_rfl, rfl⟩

theorem read_logGrows (m : Memory) (wid : WidCode) (seg off : Word) : LogGrows 2 m (m.read wid seg off).2 := by
  by_cases h : wid = .word
  · rw [h, read_word]
    exact (readByte_logGrows m seg off).trans (readByte_logGrows _ seg (off + 1))
  · rw [read_of_ne_word h]
    exact (readByte_logGrows m seg off).mono (by decide)

theorem write_logGrows (m : Memory) (wid : WidCode) (seg off v : Word) : LogGrows 2 m (m.write wid seg off v) := by
  by_cases h : wid = .word
  · rw [h, write_word]
    exact (writeByte_logGrows m seg off _).trans (writeByte_logGrows _ seg (off + 1) _)
  · rw [write_of_ne_word h]
    exact (writeByte_logGrows m seg off _).mono (by decide)

theorem AtMostOneAccess.logGrows {m m' : Memory} (h : AtMostOneAccess m m') : LogGrows 2 m m' := by
  cases h with
  | none => exact .refl 2 m
  | read wid seg off => exact read_logGrows m wid seg off
  | write wid seg off v => exact write_logGrows m wid seg off v

/-- Settles O44: a tick is one instruction, which accesses memory at most once, and an access is at most two of a byte. -/
theorem tickMakesAtMostTwoAccesses : Obligations.TickMakesAtMostTwoAccesses := by
  intro s t h
  obtain ⟨-, -, hmem⟩ := exec_frame (i := decode (currentWord s)) h
  exact hmem.logGrows

end Sys2Proof.Machine

/-! SUPPORT. What holds of every step of the model: an instruction always answers a next state, and the maps of the state stay in their
canonical forms. The invariant is that of one memory access, carried to a step by `step_frame`. -/

namespace Sys2Proof.Machine

/-! ### Every instruction answers (R175, log entry 11) -/

/-- An instruction of the example ROM says what the engine becomes in Fetching; it has no other outcome. -/
theorem exec_of_macroInstruction {i : Instr} (h : i.controlWord? = none) (s : State) :
    ∃ t, exec i s = whenFetching s t := by
  cases i
  case nop | hlt | illegal => exact ⟨_, rfl⟩
  case movRegImm16 | movRegImm8 | movRegReg | movMemImm | movRegMemw | movRegMemb => exact ⟨_, rfl⟩
  case addRegReg | addRegImm16 | subRegReg | subRegImm16 | shlRegImm8 => exact ⟨_, rfl⟩
  case jmp | jz | jnz => exact ⟨_, rfl⟩
  all_goals cases h

theorem exec_answers_next (i : Instr) (s : State) : ∃ t, exec i s = .next t := by
  cases hcw : i.controlWord? with
  | some cw => exact ⟨tickWord cw s, exec_of_controlWord hcw s⟩
  | none =>
    obtain ⟨t, ht⟩ := exec_of_macroInstruction hcw s
    exact ⟨_, ht⟩

/-- Settles O5: a step is one instruction (`step_eq_exec`), and an instruction is either a tick of a control word or one of the
example ROM, both of which answer. -/
theorem everyInstructionAnswersNext : Obligations.EveryInstructionAnswersNext := by
  refine ⟨exec_answers_next, fun s => ?_⟩
  obtain ⟨i, hi⟩ := step_eq_exec s
  rw [hi]
  exact exec_answers_next i s

/-! ### The canonical form of the state's maps (log entries 1, 2, 5) -/

theorem State.wf_iff {s : State} : s.wf = true ↔ s.mem.wf = true ∧ romWf s.rom = true := by
  rw [State.wf, Bool.and_eq_true]

/-- Settles O2. -/
theorem resetMapsCanonical : Obligations.ResetMapsCanonical :=
  State.wf_iff.mpr reset_maps_wf

theorem AtMostOneAccess.keeps_wf {m m' : Memory} (h : AtMostOneAccess m m') (hm : m.wf = true) : m'.wf = true := by
  cases h with
  | none => exact hm
  | read wid seg off => exact read_wf hm wid seg off
  | write wid seg off v => exact write_wf hm wid seg off v

theorem StepFrame.keeps_wf {s t : State} (h : StepFrame s t) (hs : s.wf = true) : t.wf = true := by
  obtain ⟨hmem, hrom⟩ := State.wf_iff.mp hs
  refine State.wf_iff.mpr ⟨h.mem.keeps_wf hmem, ?_⟩
  rw [h.rom]
  exact hrom

/-- Settles O3: a step keeps the control store and accesses memory at most once (`step_frame`), and an access keeps the canonical form
of memory, a write because it keeps that of the bytes (`sparseSet_wf`). -/
theorem stepKeepsCanonicalForm : Obligations.StepKeepsCanonicalForm := by
  intro s t hs h
  exact (step_frame h).keeps_wf hs

end Sys2Proof.Machine
